-- ==== Sys2Proof/Word.lean ====
section
/-! DEFINITION. The words of the block (rule R10 of 00_scope.md): unsigned integers of 8, 16 and 32 bits,
arithmetic modulo 2^width. Byte order and bit fields are in Decode.lean and the files of Machine/. -/

namespace Sys2Proof

/-- A byte, `u8` of rule R10. -/
abbrev Byte := BitVec 8

/-- `u16` of rule R10. -/
abbrev Word16 := BitVec 16

/-- `u32` of rule R10. -/
abbrev Word32 := BitVec 32

end Sys2Proof
end

