-- ==== Sys2Proof/Syntax.lean ====
section
/-! DEFINITION. The instructions: one constructor per row of spec/opcode_table.json (rule R115 of 30_encoding.md),
with the operand fields the rule of the row reads. A SETUP row's direction, type and bRequest are fixed by its
constructor; the recipient and the three w-fields are its operands. -/

namespace Sys2Proof

/-- The three 16-bit fields of a setup packet (rule R91). -/
structure SetupArgs where
  wValue  : Word16
  wIndex  : Word16
  wLength : Word16
deriving DecidableEq, Repr, Inhabited

/-- A decoded setup packet, the tuple of rules R33 and R91. -/
structure Setup where
  bmRequestType : Byte
  bRequest      : Byte
  wValue        : Word16
  wIndex        : Word16
  wLength       : Word16
deriving DecidableEq, Repr, Inhabited

/-- The CBW record of rules R36 and R94. `lun` is byte 13's low four bits, zero-extended; `cb` has 16 bytes. -/
structure Cbw where
  signature : Word32
  tag       : Word32
  dtl       : Word32
  flags     : Byte
  lun       : Byte
  cbLength  : Byte
  cb        : List Byte
deriving DecidableEq, Repr, Inhabited

/-- One constructor per row of the opcode table. `rcp` is bmRequestType[4:0], `dir` is bmRequestType[7],
`rq` is bRequest, `bm` is bmRequestType. -/
inductive Instr where
  -- format SETUP (rules R110, R149)
  | getStatus (rcp : BitVec 5) (a : SetupArgs)
  | getDescriptor (rcp : BitVec 5) (a : SetupArgs)
  | getConfiguration (rcp : BitVec 5) (a : SetupArgs)
  | getInterface (rcp : BitVec 5) (a : SetupArgs)
  | clearFeature (rcp : BitVec 5) (a : SetupArgs)
  | setFeature (rcp : BitVec 5) (a : SetupArgs)
  | setAddress (rcp : BitVec 5) (a : SetupArgs)
  | setDescriptor (rcp : BitVec 5) (a : SetupArgs)
  | setConfiguration (rcp : BitVec 5) (a : SetupArgs)
  | setInterface (rcp : BitVec 5) (a : SetupArgs)
  | ctrlDelegateClass (dir : BitVec 1) (rq : Byte) (a : SetupArgs)
  | ctrlDelegateVendor (dir : BitVec 1) (rq : Byte) (a : SetupArgs)
  | ctrlDelegateReserved (dir : BitVec 1) (rq : Byte) (a : SetupArgs)
  | setupDefault (bm rq : Byte) (a : SetupArgs)
  -- format SETUP.MSC (rule R111)
  | getMaxLun (a : SetupArgs)
  | bulkOnlyReset (a : SetupArgs)
  | mscDefault (bm rq : Byte) (a : SetupArgs)
  -- format SETUP.GET_DESCRIPTOR (rule R106): `index` is wValue[7:0], `type` is wValue[15:8]
  | getDescriptorDevice (rcp : BitVec 5) (index : Byte) (wIndex wLength : Word16)
  | getDescriptorConfiguration (rcp : BitVec 5) (index : Byte) (wIndex wLength : Word16)
  | getDescriptorString (rcp : BitVec 5) (index : Byte) (wIndex wLength : Word16)
  | getDescriptorDeviceQualifier (rcp : BitVec 5) (index : Byte) (wIndex wLength : Word16)
  | getDescriptorDefault (rcp : BitVec 5) (type index : Byte) (wIndex wLength : Word16)
  -- format SETUP.GET_STATUS
  | getStatusDevice (a : SetupArgs)
  | getStatusInterface (a : SetupArgs)
  | getStatusEndpoint (a : SetupArgs)
  | getStatusDefault (rcp : BitVec 5) (a : SetupArgs)
  -- format SETUP.CLEAR_FEATURE
  | clearFeatureDevice (a : SetupArgs)
  | clearFeatureEndpoint (a : SetupArgs)
  | clearFeatureDefault (rcp : BitVec 5) (a : SetupArgs)
  -- format SETUP.SET_FEATURE
  | setFeatureDevice (a : SetupArgs)
  | setFeatureEndpoint (a : SetupArgs)
  | setFeatureDefault (rcp : BitVec 5) (a : SetupArgs)
  -- format BULK_OUT (rule R113)
  | cbw (c : Cbw)
  | bulkOutDefault (p : List Byte)
  -- format CDB (rule R114): the fields of rule R100
  | testUnitReady
  | requestSense
  | inquiry (reserved : BitVec 7) (evpd : BitVec 1) (page : Byte)
  | modeSense6
  | startStopUnit
  | preventAllowMediumRemoval
  | readFormatCapacities
  | readCapacity10
  | read10 (lba : Word32) (n : Word16)
  | write10 (lba : Word32) (n : Word16)
  | writeBuffer
  | readBuffer
  | vendor (cb : List Byte)
  | cdbDefault (op : Byte)
deriving DecidableEq, Repr

/-- The `format` column of the opcode table (rule R115): which key of which unit a row decodes. -/
inductive Format where
  | setup
  | msc
  | getDescriptor
  | getStatus
  | clearFeature
  | setFeature
  | bulkOut
  | cdb
deriving DecidableEq, Repr

/-- The format of a constructor's row. -/
def Instr.format : Instr → Format
  | .getStatus .. => .setup
  | .getDescriptor .. => .setup
  | .getConfiguration .. => .setup
  | .getInterface .. => .setup
  | .clearFeature .. => .setup
  | .setFeature .. => .setup
  | .setAddress .. => .setup
  | .setDescriptor .. => .setup
  | .setConfiguration .. => .setup
  | .setInterface .. => .setup
  | .ctrlDelegateClass .. => .setup
  | .ctrlDelegateVendor .. => .setup
  | .ctrlDelegateReserved .. => .setup
  | .setupDefault .. => .setup
  | .getMaxLun .. => .msc
  | .bulkOnlyReset .. => .msc
  | .mscDefault .. => .msc
  | .getDescriptorDevice .. => .getDescriptor
  | .getDescriptorConfiguration .. => .getDescriptor
  | .getDescriptorString .. => .getDescriptor
  | .getDescriptorDeviceQualifier .. => .getDescriptor
  | .getDescriptorDefault .. => .getDescriptor
  | .getStatusDevice .. => .getStatus
  | .getStatusInterface .. => .getStatus
  | .getStatusEndpoint .. => .getStatus
  | .getStatusDefault .. => .getStatus
  | .clearFeatureDevice .. => .clearFeature
  | .clearFeatureEndpoint .. => .clearFeature
  | .clearFeatureDefault .. => .clearFeature
  | .setFeatureDevice .. => .setFeature
  | .setFeatureEndpoint .. => .setFeature
  | .setFeatureDefault .. => .setFeature
  | .cbw .. => .bulkOut
  | .bulkOutDefault .. => .bulkOut
  | .testUnitReady => .cdb
  | .requestSense => .cdb
  | .inquiry .. => .cdb
  | .modeSense6 => .cdb
  | .startStopUnit => .cdb
  | .preventAllowMediumRemoval => .cdb
  | .readFormatCapacities => .cdb
  | .readCapacity10 => .cdb
  | .read10 .. => .cdb
  | .write10 .. => .cdb
  | .writeBuffer => .cdb
  | .readBuffer => .cdb
  | .vendor .. => .cdb
  | .cdbDefault .. => .cdb

end Sys2Proof
end

