-- ==== Sys2Proof/WellFormed.lean ====
section
/-! DEFINITION. Which terms of `Instr` stand for words of their row: a default row holds only what no other row of
its format matches (rule R115 of 30_encoding.md), a CBW has its signature, a 4-bit LUN and 16 bytes of command block
(rule R94), a packet has at most 64 bytes (rule R14). -/

namespace Sys2Proof

/-- bmRequestType[7:5], direction and type (rule R92). -/
abbrev topBits (bm : Byte) : BitVec 3 := bm.extractLsb' 5 3

/-- bmRequestType[4:0], the recipient (rule R92). -/
abbrev rcpBits (bm : Byte) : BitVec 5 := bm.extractLsb' 0 5

/-- No SETUP row other than the default matches (bm, rq) (rules R110, R116). -/
def setupDefaultKey (bm rq : Byte) : Bool :=
  if topBits bm = 0b100#3 then ! [0x00#8, 0x06#8, 0x08#8, 0x0A#8].contains rq
  else if topBits bm = 0b000#3 then ! [0x01#8, 0x03#8, 0x05#8, 0x07#8, 0x09#8, 0x0B#8].contains rq
  else rcpBits bm != 0x01#5

/-- A delegated key the MSC driver does not know (rules R111, R205). -/
def mscDefaultKey (bm rq : Byte) : Bool :=
  topBits bm != 0b100#3 && topBits bm != 0b000#3 && rcpBits bm == 0x01#5
    && ! (bm == 0xA1#8 && rq == 0xFE#8) && ! (bm == 0x21#8 && rq == 0xFF#8)

/-- An operation code no CDB row other than the default matches (rules R114, R118). -/
def cdbDefaultKey (op : Byte) : Bool :=
  ! [0x00#8, 0x03#8, 0x12#8, 0x1A#8, 0x1B#8, 0x1E#8, 0x23#8, 0x25#8, 0x28#8, 0x2A#8, 0x3B#8, 0x3C#8].contains op
    && op.extractLsb' 6 2 != 0b11#2

/-- A term that stands for a word of its row. -/
def Instr.wf : Instr → Bool
  | .setupDefault bm rq _ => setupDefaultKey bm rq
  | .mscDefault bm rq _ => mscDefaultKey bm rq
  | .getDescriptorDefault _ type _ _ _ => ! [0x01#8, 0x02#8, 0x03#8, 0x06#8].contains type
  | .getStatusDefault rcp _ => rcp != 0#5 && rcp != 1#5 && rcp != 2#5
  | .clearFeatureDefault rcp _ => rcp != 0#5 && rcp != 2#5
  | .setFeatureDefault rcp _ => rcp != 0#5 && rcp != 2#5
  | .cbw c => c.signature == 0x43425355#32 && c.lun.extractLsb' 4 4 == 0#4 && c.cb.length == 16
  | .bulkOutDefault p =>
      decide (p.length ≤ 64) && ! (p.length == 31 && p.take 4 == [0x55#8, 0x53#8, 0x42#8, 0x43#8])
  | .vendor cb => cb.length == 16 && (cb.headD 0#8).extractLsb' 6 2 == 0b11#2
  | .cdbDefault op => cdbDefaultKey op
  | .getStatus .. => true
  | .getDescriptor .. => true
  | .getConfiguration .. => true
  | .getInterface .. => true
  | .clearFeature .. => true
  | .setFeature .. => true
  | .setAddress .. => true
  | .setDescriptor .. => true
  | .setConfiguration .. => true
  | .setInterface .. => true
  | .ctrlDelegateClass .. => true
  | .ctrlDelegateVendor .. => true
  | .ctrlDelegateReserved .. => true
  | .getMaxLun .. => true
  | .bulkOnlyReset .. => true
  | .getDescriptorDevice .. => true
  | .getDescriptorConfiguration .. => true
  | .getDescriptorString .. => true
  | .getDescriptorDeviceQualifier .. => true
  | .getStatusDevice .. => true
  | .getStatusInterface .. => true
  | .getStatusEndpoint .. => true
  | .clearFeatureDevice .. => true
  | .clearFeatureEndpoint .. => true
  | .setFeatureDevice .. => true
  | .setFeatureEndpoint .. => true
  | .testUnitReady => true
  | .requestSense => true
  | .inquiry .. => true
  | .modeSense6 => true
  | .startStopUnit => true
  | .preventAllowMediumRemoval => true
  | .readFormatCapacities => true
  | .readCapacity10 => true
  | .read10 .. => true
  | .write10 .. => true
  | .writeBuffer => true
  | .readBuffer => true

end Sys2Proof
end

