-- ==== Sys2Proof/Decode.lean ====
section
/-! DEFINITION. Byte order, the decoder (rules R90 to R100, R106, R110 to R115 of 30_encoding.md) and the encoder
written from the same tables. Decoding is total on any bytes: a unit of the wrong length, or one whose first-level
row is not the one a second-level format belongs to, is rejected by name. -/

namespace Sys2Proof

/-! Byte order (rules R10, R71, R72): every wider field is assembled from bytes and split into bytes. -/

/-- Byte `k` of a sequence. -/
def byteAt (p : List Byte) (k : Nat) : Byte := p.getD k 0

/-- `le16(p, k)` of rule R10. -/
def le16 (p : List Byte) (k : Nat) : Word16 := byteAt p (k + 1) ++ byteAt p k

/-- `le32(p, k)` of rule R10. -/
def le32 (p : List Byte) (k : Nat) : Word32 :=
  byteAt p (k + 3) ++ byteAt p (k + 2) ++ byteAt p (k + 1) ++ byteAt p k

/-- `be16(p, k)` of rule R10. -/
def be16 (p : List Byte) (k : Nat) : Word16 := byteAt p k ++ byteAt p (k + 1)

/-- `be32(p, k)` of rule R10. -/
def be32 (p : List Byte) (k : Nat) : Word32 :=
  byteAt p k ++ byteAt p (k + 1) ++ byteAt p (k + 2) ++ byteAt p (k + 3)

/-- `put_le16(v)` of rule R10. -/
def putLe16 (v : Word16) : List Byte := [v.extractLsb' 0 8, v.extractLsb' 8 8]

/-- `put_le32(v)` of rule R10. -/
def putLe32 (v : Word32) : List Byte :=
  [v.extractLsb' 0 8, v.extractLsb' 8 8, v.extractLsb' 16 8, v.extractLsb' 24 8]

/-- `put_be16(v)` of rule R10. -/
def putBe16 (v : Word16) : List Byte := [v.extractLsb' 8 8, v.extractLsb' 0 8]

/-- `put_be32(v)` of rule R10. -/
def putBe32 (v : Word32) : List Byte :=
  [v.extractLsb' 24 8, v.extractLsb' 16 8, v.extractLsb' 8 8, v.extractLsb' 0 8]

/-! The decoder. -/

/-- Why bytes are no instruction of a format. -/
inductive DecodeError where
  /-- A SETUP is 8 bytes (R91), a bulk-OUT packet at most 64 (R14), a command block 16 (R94). -/
  | wrongLength (f : Format)
  /-- A second-level format is tried only after its first-level row matched (R115). -/
  | wrongFirstLevel (f : Format)
deriving DecidableEq, Repr

/-- The three w-fields of a setup packet. -/
def Setup.args (s : Setup) : SetupArgs := ⟨s.wValue, s.wIndex, s.wLength⟩

/-- `decode_setup(p)`: rule R91, on the 8 bytes of a SETUP packet. -/
def decodeSetup (p : List Byte) : Option Setup :=
  if p.length = 8 then
    some { bmRequestType := byteAt p 0, bRequest := byteAt p 1, wValue := le16 p 2, wIndex := le16 p 4,
           wLength := le16 p 6 }
  else none

/-- First-level decode of a SETUP packet, in the order of rules R110 and R149. -/
def decodeFirst (s : Setup) : Instr :=
  let bm := s.bmRequestType
  let rq := s.bRequest
  let rcp := rcpBits bm
  if topBits bm = 0b100#3 then
    if rq = 0x00#8 then .getStatus rcp s.args
    else if rq = 0x06#8 then .getDescriptor rcp s.args
    else if rq = 0x08#8 then .getConfiguration rcp s.args
    else if rq = 0x0A#8 then .getInterface rcp s.args
    else .setupDefault bm rq s.args
  else if topBits bm = 0b000#3 then
    if rq = 0x01#8 then .clearFeature rcp s.args
    else if rq = 0x03#8 then .setFeature rcp s.args
    else if rq = 0x05#8 then .setAddress rcp s.args
    else if rq = 0x07#8 then .setDescriptor rcp s.args
    else if rq = 0x09#8 then .setConfiguration rcp s.args
    else if rq = 0x0B#8 then .setInterface rcp s.args
    else .setupDefault bm rq s.args
  else if rcp = 0x01#5 then
    if bm.extractLsb' 5 2 = 0b01#2 then .ctrlDelegateClass (bm.extractLsb' 7 1) rq s.args
    else if bm.extractLsb' 5 2 = 0b10#2 then .ctrlDelegateVendor (bm.extractLsb' 7 1) rq s.args
    else .ctrlDelegateReserved (bm.extractLsb' 7 1) rq s.args
  else .setupDefault bm rq s.args

/-- Second-level decode of a delegated request by the MSC driver: exact match on both bytes (rule R111). -/
def decodeMsc (bm rq : Byte) (a : SetupArgs) : Instr :=
  if bm = 0xA1#8 ∧ rq = 0xFE#8 then .getMaxLun a
  else if bm = 0x21#8 ∧ rq = 0xFF#8 then .bulkOnlyReset a
  else .mscDefault bm rq a

/-- Second-level decode of GET_DESCRIPTOR by wValue (rules R93, R106). -/
def decodeDescriptor (rcp : BitVec 5) (a : SetupArgs) : Instr :=
  let type := a.wValue.extractLsb' 8 8
  let index := a.wValue.extractLsb' 0 8
  if type = 0x01#8 then .getDescriptorDevice rcp index a.wIndex a.wLength
  else if type = 0x02#8 then .getDescriptorConfiguration rcp index a.wIndex a.wLength
  else if type = 0x03#8 then .getDescriptorString rcp index a.wIndex a.wLength
  else if type = 0x06#8 then .getDescriptorDeviceQualifier rcp index a.wIndex a.wLength
  else .getDescriptorDefault rcp type index a.wIndex a.wLength

/-- Second-level decode of GET_STATUS by recipient (rules R181 to R183, R193). -/
def decodeStatus (rcp : BitVec 5) (a : SetupArgs) : Instr :=
  if rcp = 0x00#5 then .getStatusDevice a
  else if rcp = 0x01#5 then .getStatusInterface a
  else if rcp = 0x02#5 then .getStatusEndpoint a
  else .getStatusDefault rcp a

/-- Second-level decode of CLEAR_FEATURE by recipient (rules R185 to R187). -/
def decodeClearFeature (rcp : BitVec 5) (a : SetupArgs) : Instr :=
  if rcp = 0x00#5 then .clearFeatureDevice a
  else if rcp = 0x02#5 then .clearFeatureEndpoint a
  else .clearFeatureDefault rcp a

/-- Second-level decode of SET_FEATURE by recipient (rules R188, R189). -/
def decodeSetFeature (rcp : BitVec 5) (a : SetupArgs) : Instr :=
  if rcp = 0x00#5 then .setFeatureDevice a
  else if rcp = 0x02#5 then .setFeatureEndpoint a
  else .setFeatureDefault rcp a

/-- The CBW signature, "USBC" (rules R7, R94). -/
def cbwSignature : Word32 := 0x43425355#32

/-- `decode_cbw(p)`: rule R94, on 31 bytes. The reserved bits of byte 13 are ignored. -/
def decodeCbw (p : List Byte) : Cbw :=
  { signature := le32 p 0, tag := le32 p 4, dtl := le32 p 8, flags := byteAt p 12,
    lun := (byteAt p 13) &&& 0x0F#8, cbLength := byteAt p 14, cb := (p.drop 15).take 16 }

/-- Decode of a bulk-OUT packet in phase AWAIT_CBW (rule R113): a CBW if and only if it has 31 bytes and the
signature. -/
def decodeBulkOut (p : List Byte) : Instr :=
  if p.length = 31 ∧ le32 p 0 = cbwSignature then .cbw (decodeCbw p) else .bulkOutDefault p

/-- Decode of a command block by its byte 0 (rule R114), the fields as rules R98 to R100 place them. -/
def decodeCdb (cb : List Byte) : Instr :=
  let op := byteAt cb 0
  if op = 0x00#8 then .testUnitReady
  else if op = 0x03#8 then .requestSense
  else if op = 0x12#8 then
    .inquiry ((byteAt cb 1).extractLsb' 1 7) ((byteAt cb 1).extractLsb' 0 1) (byteAt cb 2)
  else if op = 0x1A#8 then .modeSense6
  else if op = 0x1B#8 then .startStopUnit
  else if op = 0x1E#8 then .preventAllowMediumRemoval
  else if op = 0x23#8 then .readFormatCapacities
  else if op = 0x25#8 then .readCapacity10
  else if op = 0x28#8 then .read10 (be32 cb 2) (be16 cb 7)
  else if op = 0x2A#8 then .write10 (be32 cb 2) (be16 cb 7)
  else if op = 0x3B#8 then .writeBuffer
  else if op = 0x3C#8 then .readBuffer
  else if op.extractLsb' 6 2 = 0b11#2 then .vendor cb
  else .cdbDefault op

/-- The decoder: what the bytes of a unit are in a format (rule R115). -/
def decodeAs (f : Format) (p : List Byte) : Except DecodeError Instr :=
  match f with
  | .bulkOut => if p.length ≤ 64 then .ok (decodeBulkOut p) else .error (.wrongLength f)
  | .cdb => if p.length = 16 then .ok (decodeCdb p) else .error (.wrongLength f)
  | .setup =>
    match decodeSetup p with
    | none => .error (.wrongLength f)
    | some s => .ok (decodeFirst s)
  | .msc =>
    match decodeSetup p with
    | none => .error (.wrongLength f)
    | some s =>
      match decodeFirst s with
      | .ctrlDelegateClass .. => .ok (decodeMsc s.bmRequestType s.bRequest s.args)
      | .ctrlDelegateVendor .. => .ok (decodeMsc s.bmRequestType s.bRequest s.args)
      | .ctrlDelegateReserved .. => .ok (decodeMsc s.bmRequestType s.bRequest s.args)
      | _ => .error (.wrongFirstLevel f)
  | .getDescriptor =>
    match decodeSetup p with
    | none => .error (.wrongLength f)
    | some s =>
      match decodeFirst s with
      | .getDescriptor rcp a => .ok (decodeDescriptor rcp a)
      | _ => .error (.wrongFirstLevel f)
  | .getStatus =>
    match decodeSetup p with
    | none => .error (.wrongLength f)
    | some s =>
      match decodeFirst s with
      | .getStatus rcp a => .ok (decodeStatus rcp a)
      | _ => .error (.wrongFirstLevel f)
  | .clearFeature =>
    match decodeSetup p with
    | none => .error (.wrongLength f)
    | some s =>
      match decodeFirst s with
      | .clearFeature rcp a => .ok (decodeClearFeature rcp a)
      | _ => .error (.wrongFirstLevel f)
  | .setFeature =>
    match decodeSetup p with
    | none => .error (.wrongLength f)
    | some s =>
      match decodeFirst s with
      | .setFeature rcp a => .ok (decodeSetFeature rcp a)
      | _ => .error (.wrongFirstLevel f)

/-! The encoder. -/

/-- The eight bytes of a setup packet (rules R91, R121). -/
def encodeSetup (bm rq : Byte) (a : SetupArgs) : List Byte :=
  [bm, rq] ++ putLe16 a.wValue ++ putLe16 a.wIndex ++ putLe16 a.wLength

/-- A setup packet of a standard request, device to host. -/
def encodeIn (rq : Byte) (rcp : BitVec 5) (a : SetupArgs) : List Byte := encodeSetup (0b100#3 ++ rcp) rq a

/-- A setup packet of a standard request, host to device. -/
def encodeOut (rq : Byte) (rcp : BitVec 5) (a : SetupArgs) : List Byte := encodeSetup (0b000#3 ++ rcp) rq a

/-- A setup packet of a non-standard request for an interface, of the given type (rule R92). -/
def encodeIface (type : BitVec 2) (dir : BitVec 1) (rq : Byte) (a : SetupArgs) : List Byte :=
  encodeSetup (dir ++ type ++ 0b00001#5) rq a

/-- A GET_DESCRIPTOR packet (rule R93). -/
def encodeDescriptor (rcp : BitVec 5) (type index : Byte) (wIndex wLength : Word16) : List Byte :=
  encodeIn 0x06#8 rcp ⟨type ++ index, wIndex, wLength⟩

/-- The 31 bytes of a CBW (rules R94, R121). -/
def encodeCbw (c : Cbw) : List Byte :=
  putLe32 c.signature ++ putLe32 c.tag ++ putLe32 c.dtl ++ [c.flags, c.lun, c.cbLength] ++ c.cb

/-- A command block padded with zeros to 16 bytes (rule R94). -/
def padCb (cb : List Byte) : List Byte := cb ++ List.replicate (16 - cb.length) 0#8

/-- The 16 bytes of READ(10) or WRITE(10) (rules R99, R122). -/
def encodeRw (op : Byte) (lba : Word32) (n : Word16) : List Byte :=
  padCb ([op, 0#8] ++ putBe32 lba ++ [0#8] ++ putBe16 n ++ [0#8])

/-- The bytes of an instruction in its own format. -/
def encode : Instr → List Byte
  | .getStatus rcp a => encodeIn 0x00#8 rcp a
  | .getDescriptor rcp a => encodeIn 0x06#8 rcp a
  | .getConfiguration rcp a => encodeIn 0x08#8 rcp a
  | .getInterface rcp a => encodeIn 0x0A#8 rcp a
  | .clearFeature rcp a => encodeOut 0x01#8 rcp a
  | .setFeature rcp a => encodeOut 0x03#8 rcp a
  | .setAddress rcp a => encodeOut 0x05#8 rcp a
  | .setDescriptor rcp a => encodeOut 0x07#8 rcp a
  | .setConfiguration rcp a => encodeOut 0x09#8 rcp a
  | .setInterface rcp a => encodeOut 0x0B#8 rcp a
  | .ctrlDelegateClass dir rq a => encodeIface 0b01#2 dir rq a
  | .ctrlDelegateVendor dir rq a => encodeIface 0b10#2 dir rq a
  | .ctrlDelegateReserved dir rq a => encodeIface 0b11#2 dir rq a
  | .setupDefault bm rq a => encodeSetup bm rq a
  | .getMaxLun a => encodeSetup 0xA1#8 0xFE#8 a
  | .bulkOnlyReset a => encodeSetup 0x21#8 0xFF#8 a
  | .mscDefault bm rq a => encodeSetup bm rq a
  | .getDescriptorDevice rcp index wIndex wLength => encodeDescriptor rcp 0x01#8 index wIndex wLength
  | .getDescriptorConfiguration rcp index wIndex wLength => encodeDescriptor rcp 0x02#8 index wIndex wLength
  | .getDescriptorString rcp index wIndex wLength => encodeDescriptor rcp 0x03#8 index wIndex wLength
  | .getDescriptorDeviceQualifier rcp index wIndex wLength => encodeDescriptor rcp 0x06#8 index wIndex wLength
  | .getDescriptorDefault rcp type index wIndex wLength => encodeDescriptor rcp type index wIndex wLength
  | .getStatusDevice a => encodeIn 0x00#8 0x00#5 a
  | .getStatusInterface a => encodeIn 0x00#8 0x01#5 a
  | .getStatusEndpoint a => encodeIn 0x00#8 0x02#5 a
  | .getStatusDefault rcp a => encodeIn 0x00#8 rcp a
  | .clearFeatureDevice a => encodeOut 0x01#8 0x00#5 a
  | .clearFeatureEndpoint a => encodeOut 0x01#8 0x02#5 a
  | .clearFeatureDefault rcp a => encodeOut 0x01#8 rcp a
  | .setFeatureDevice a => encodeOut 0x03#8 0x00#5 a
  | .setFeatureEndpoint a => encodeOut 0x03#8 0x02#5 a
  | .setFeatureDefault rcp a => encodeOut 0x03#8 rcp a
  | .cbw c => encodeCbw c
  | .bulkOutDefault p => p
  | .testUnitReady => padCb [0x00#8]
  | .requestSense => padCb [0x03#8]
  | .inquiry reserved evpd page => padCb [0x12#8, reserved ++ evpd, page]
  | .modeSense6 => padCb [0x1A#8]
  | .startStopUnit => padCb [0x1B#8]
  | .preventAllowMediumRemoval => padCb [0x1E#8]
  | .readFormatCapacities => padCb [0x23#8]
  | .readCapacity10 => padCb [0x25#8]
  | .read10 lba n => encodeRw 0x28#8 lba n
  | .write10 lba n => encodeRw 0x2A#8 lba n
  | .writeBuffer => padCb [0x3B#8]
  | .readBuffer => padCb [0x3C#8]
  | .vendor cb => cb
  | .cdbDefault op => padCb [op]

/-! The opcode table's numbering of words. -/

/-- Byte `k` of a number whose bit 0 is the least significant bit of the first byte. -/
def tableByte (w k : Nat) : Byte := BitVec.ofNat 8 (w >>> (8 * k))

/-- The unit a table word of `nbits` bits stands for, every higher bit zero (rule R115, log 19): 8 bits key a command
block by cb[0], 16 bits a SETUP packet by le16(p, 0), 32 bits a 31-byte bulk-OUT packet by le32(p, 0). A key that is
the match of second-level rows only is read in the format of the first of them: two of SETUP.MSC, two of
SETUP.GET_DESCRIPTOR (the key is wValue), two of SETUP.GET_STATUS (the key is the recipient). -/
def tableUnit (nbits w : Nat) : Option (Format × List Byte) :=
  if nbits = 8 then
    if w = 0x01 ∨ w = 0x02 then
      some (.getStatus, [0x80#8 ||| tableByte w 0, 0x00#8] ++ List.replicate 6 0#8)
    else some (.cdb, padCb [tableByte w 0])
  else if nbits = 16 then
    if w = 0xFEA1 ∨ w = 0xFF21 then some (.msc, [tableByte w 0, tableByte w 1] ++ List.replicate 6 0#8)
    else if w = 0x0200 ∨ w = 0x0600 then
      some (.getDescriptor, [0x80#8, 0x06#8, tableByte w 0, tableByte w 1] ++ List.replicate 4 0#8)
    else some (.setup, [tableByte w 0, tableByte w 1] ++ List.replicate 6 0#8)
  else if nbits = 32 then
    some (.bulkOut, [tableByte w 0, tableByte w 1, tableByte w 2, tableByte w 3] ++ List.replicate 27 0#8)
  else none

/-- The instruction the decoder reads from a table word. -/
def decodeTableWord (nbits w : Nat) : Option Instr :=
  match tableUnit nbits w with
  | none => none
  | some (f, p) => (decodeAs f p).toOption

end Sys2Proof
end

