-- ==== Sys2Proof/Config.lean ====
section
/-! DEFINITION. What an implementation fixes (rule R8 of 00_scope.md), with the defaults of that rule, and the one
free value of the model: the medium's answer when the environment has supplied none (rule R18). -/

namespace Sys2Proof

/-- One logical block, 512 bytes (rules R7, R18). -/
abbrev Block := Vector Byte 512

/-- What a vendor callback answers (rules R333, R334): the return code, the payload for codes 1 and 2, the value it
leaves in `ctx`, and the sense it set, if it called `set_sense`. -/
structure VendorAnswer where
  code    : Int
  payload : List Byte
  ctx     : Word32
  sense   : Option (BitVec 4 × Byte × Byte)
deriving DecidableEq, Repr, Inhabited

/-- What the medium answers to one LUN call (rule R18): `ok` for Ok against Err, the block of a `LunRead`, the answer
of a `LunVendor`. A call reads the parts that concern it. -/
structure LunAnswer where
  ok     : Bool
  block  : Block
  vendor : VendorAnswer
deriving DecidableEq, Repr, Inhabited

/-- FREE VALUE (rule R18, log 6): the answer to the k-th LUN call for which no answer was queued. Nothing constrains
it. -/
opaque Config.freeAnswer : Nat → LunAnswer

/-- The parameters of rule R8 that no other state field carries. `STR_COUNT` is `strings.length + 1`. -/
structure Config where
  strings       : List (List Word16)
  inqStd        : List Byte
  vpdSerial     : List Byte
  vpdDevid      : List Byte
  modePages     : List Byte
  hasBufferCmds : Bool
  pmaSize       : Nat
  bcfgValue     : Byte
deriving DecidableEq, Repr

/-- `STR_COUNT` (rule R8). -/
def Config.strCount (c : Config) : Nat := c.strings.length + 1

/-- `VPD_DEVID` is two designation descriptors, the first of designator type 1 (T10 vendor identification), the second
of type 2 (EUI-64): each a 4-byte header, the type in bits 3:0 of byte 1, the designator's length in byte 3 (rule R299;
the layout is the spec's "from general knowledge", log 24). -/
def Config.devidDescriptors (p : List Byte) : Bool :=
  let second := p.drop (4 + (p.getD 3 0#8).toNat)
  decide (4 ≤ p.length) && (p.getD 1 0#8).extractLsb' 0 4 == 1#4
    && decide (4 ≤ second.length) && (second.getD 1 0#8).extractLsb' 0 4 == 2#4
    && second.length == 4 + (second.getD 3 0#8).toNat

/-- The constraints rule R8 puts on the parameters (and R296 on `INQ_STD`, R299 on `VPD_DEVID`). -/
def Config.valid (c : Config) : Bool :=
  decide (3 ≤ c.strCount) && c.strings.all (fun t => decide (t.length ≤ 30))
    && c.inqStd.length == 36 && c.inqStd.take 2 == [0x00#8, 0x80#8]
    && (c.inqStd.drop 3).take 13 == [0x02#8, 0x1F#8, 0x00#8, 0x00#8, 0x00#8,
          0x41#8, 0x47#8, 0x49#8, 0x4C#8, 0x41#8, 0x43#8, 0x4B#8, 0x20#8]
    && decide (c.vpdSerial.length ≤ 60) && decide (c.vpdDevid.length ≤ 251)
    && Config.devidDescriptors c.vpdDevid && decide (c.modePages.length ≤ 251) && decide (0x1C0 ≤ c.pmaSize)

/-- The defaults of rules R8, R296, R298 and R299 (placeholders where those rules say so; log 13). -/
def Config.default : Config where
  strings :=
    [[0x41#16, 0x67#16, 0x69#16, 0x6C#16, 0x61#16, 0x63#16, 0x6B#16],
     [0x43#16, 0x6F#16, 0x77#16, 0x73#16, 0x74#16, 0x69#16, 0x63#16, 0x6B#16]]
  inqStd :=
    [0x00#8, 0x80#8, 0x06#8, 0x02#8, 0x1F#8, 0x00#8, 0x00#8, 0x00#8,
     0x41#8, 0x47#8, 0x49#8, 0x4C#8, 0x41#8, 0x43#8, 0x4B#8, 0x20#8] ++
    [0x43#8, 0x4F#8, 0x57#8, 0x53#8, 0x54#8, 0x49#8, 0x43#8, 0x4B#8,
     0x2D#8, 0x55#8, 0x4D#8, 0x53#8, 0x20#8, 0x20#8, 0x20#8, 0x20#8] ++
    [0x30#8, 0x31#8, 0x30#8, 0x31#8]
  vpdSerial := [0x30#8, 0x30#8, 0x30#8, 0x30#8, 0x30#8, 0x30#8, 0x30#8, 0x31#8]
  vpdDevid :=
    [0x02#8, 0x01#8, 0x00#8, 0x10#8, 0x41#8, 0x47#8, 0x49#8, 0x4C#8, 0x41#8, 0x43#8, 0x4B#8, 0x20#8] ++
    [0x30#8, 0x30#8, 0x30#8, 0x30#8, 0x30#8, 0x30#8, 0x30#8, 0x31#8] ++
    [0x01#8, 0x02#8, 0x00#8, 0x08#8, 0x00#8, 0x00#8, 0x00#8, 0x00#8, 0x00#8, 0x00#8, 0x00#8, 0x01#8]
  modePages := []
  hasBufferCmds := false
  pmaSize := 0x800
  bcfgValue := 0x01#8

end Sys2Proof
end

