-- ==== Sys2Proof/Machine/State.lean ====
section
/-! DEFINITION. The state of the block as plain data (10_state.md rules R20 to R53), the reasons a step can stop, and
the state after power-on (rule R52). -/

namespace Sys2Proof.Machine

/-! ## The USB device layer -/

/-- `usb.enum_state` (rule R21). -/
inductive EnumState where
  | powered
  | default
  | address
  | configured
deriving DecidableEq, Repr

/-- The state of one half of an endpoint slot (rule R28). -/
inductive HalfState where
  | disabled
  | stall
  | nak
  | valid
deriving DecidableEq, Repr

/-- The transfer type of a slot (rule R27). -/
inductive EpType where
  | control
  | bulk
  | interrupt
  | iso
deriving DecidableEq, Repr

/-- A direction `dir` (rule R11): IN is the TX half, OUT the RX half. -/
inductive Dir where
  | dIn
  | dOut
deriving DecidableEq, Repr

/-- The callbacks of this firmware's slots (rules R30, R224). -/
inductive EpCallback where
  | ep0Engine
  | mscRx
  | mscTx
  | mscRelease
deriving DecidableEq, Repr

/-- One half of a slot (rules R28, R29, R31). `count` is the length field of its buffer descriptor; the bytes are in
packet memory at the half's static offset. -/
structure Half where
  state  : HalfState
  toggle : Bool
  count  : Nat
deriving DecidableEq, Repr

/-- One endpoint slot (rule R27); its number is its index in the table. -/
structure Endpoint where
  type      : EpType
  rx        : Half
  tx        : Half
  cbRx      : Option EpCallback
  cbTx      : Option EpCallback
  cbRelease : Option EpCallback
deriving DecidableEq, Repr

/-- An interface driver of this firmware (rules R34, R145, R224): each of the MSC driver's four callbacks, present or
null (log 16). -/
structure Driver where
  periodic : Bool
  reset    : Bool
  enable   : Bool
  ctrlReq  : Bool
deriving DecidableEq, Repr

/-- The MSC driver (rule R224). -/
def Driver.msc : Driver := ⟨true, true, true, true⟩

/-- `usb` (rules R21 to R34). The length of `ifdrv` is `N_IF` (log 14). -/
structure Usb where
  enumState      : EnumState
  devAddress     : BitVec 7
  pendingAddress : Option (BitVec 7)
  configValue    : Byte
  pullup         : Bool
  ep             : Vector Endpoint 8
  setup          : Setup
  ifdrv          : List (Option Driver)
deriving DecidableEq, Repr

/-! ## The Bulk-Only Transport session -/

/-- `bot.phase` (rule R35). -/
inductive Phase where
  | awaitCbw
  | dataIn
  | dataOut
  | awaitCsw
  | error
  | recovery
deriving DecidableEq, Repr

/-- `bot.csw` (rule R37). -/
structure Csw where
  tag     : Word32
  residue : Word32
  status  : Byte
deriving DecidableEq, Repr

/-- A byte-addressed memory: the bytes that differ from what an unlisted address reads as, by rising address (log 7). -/
abbrev Mem := List Host.Cell

/-- `bot` (rules R35 to R42). -/
structure Bot where
  phase        : Phase
  cbw          : Cbw
  csw          : Csw
  dataOffset   : Word32
  dataLen      : Word32
  moreData     : Bool
  resetPending : Bool
  rxFlag       : Bool
  txFlag       : Bool
  errFlag      : Bool
  rstFlag      : Bool
  dataBuf      : Mem
deriving DecidableEq, Repr

/-! ## The SCSI target -/

/-- `scsi.sense` (rule R44). -/
structure Sense where
  responseCode     : Byte
  key              : BitVec 4
  asc              : Byte
  ascq             : Byte
  information      : Word32
  commandSpecific  : Word32
  additionalLength : Byte
deriving DecidableEq, Repr

/-- The state of a medium (rule R45). -/
inductive MediumState where
  | notPresent
  | ready
deriving DecidableEq, Repr

/-- The LUN record (rule R45). `cmdVendor`: a vendor callback is registered. The other callbacks are the oracle of
rule R18. -/
structure Lun where
  state          : MediumState
  capacityBlocks : Word32
  writable       : Bool
  permission     : Nat
  cmdVendor      : Bool
deriving DecidableEq, Repr

/-- `scsi` (rules R43 to R46). The length of `lun` is `N_LUN` (log 14). `inLen` and `code` are the argument `in_len`
and the return code of the last `scsi_command` (rules R281, R282; the model's own latches, log 18). -/
structure Scsi where
  ctx   : Word32
  sense : Sense
  lun   : List Lun
  inLen : Word32
  code  : Int
deriving DecidableEq, Repr

/-! ## The environment -/

/-- The calls the block makes on the LUN callbacks (rules R15, R18). -/
inductive LunCall where
  | read (l : Nat) (lba : Word32)
  | write (l : Nat) (lba : Word32) (block : List Byte)
  | preload (l : Nat) (lba : Word32)
  | complete (l : Nat)
  | vendor (l : Nat) (cb : List Byte) (inLen : Word32) (data : List Byte)
deriving DecidableEq, Repr

/-- The medium agent (rule R18): the answers it will give, oldest first; how many answers were free because none was
queued; the calls it received, oldest first (log 6, log 26). -/
structure Medium where
  answers   : List LunAnswer
  freeCount : Nat
  calls     : List LunCall
deriving DecidableEq, Repr

/-- The input events (rule R14). -/
inductive Event where
  | rxSetup (p : List Byte)
  | rxOut (n : Fin 8) (p : List Byte)
  | txDone (n : Fin 8)
  | busReset
  | busError
  | overrun
  | tick
  | registerInterface (i : Nat) (d : Driver)
  | start
  | mediumChange (l : Nat) (m : MediumState)
deriving DecidableEq, Repr

/-! ## The aggregate -/

/-- The block (rule R20), packet memory (rule R61), the medium, the events still to be delivered, oldest first
(rules R17, R51; log 1), and the parameters of rule R8, which no step writes. -/
structure State where
  usb    : Usb
  bot    : Bot
  scsi   : Scsi
  pma    : Mem
  medium : Medium
  inputs : List Event
  cfg    : Config
deriving DecidableEq, Repr

/-- The reasons a step stops: the `unspecified(reason)` of rule R12, listed in 93_implementation_defined.md section 2.
Every one is safe: the real device does something there and the model says nothing of it (log 12). -/
inductive Fault where
  /-- `ep_configure` of a half with no entry in the static table (rules R64, R142); `send` and a reception on one
  (log 35). Safe. -/
  | noStaticBufferForEndpoint
  /-- A packet-memory write off a word boundary (rule R73). Safe. -/
  | misalignedPmaWrite
  /-- A packet-memory write beyond `PMA_SIZE` (rule R61; log 20). Safe. -/
  | packetMemoryOutOfRange
  /-- `send` of more than 64 bytes (rule R144). Safe. -/
  | sendTooLong
  /-- `send` on a TX half that is not NAK (rule R144). Safe. -/
  | sendHalfNotIdle
  /-- `register_interface` with an index from `N_IF` on (rule R145). Safe. -/
  | interfaceIndexOutOfRange
  /-- A driver's `ctrl_req` returned more than 1 (rules R153, R154). Safe. -/
  | ctrlReqReturnOutOfRange
  /-- A bulk-OUT packet in AWAIT_CBW that is no CBW (rules R117, R233). Safe. -/
  | invalidCbw
  /-- A CBW with a bad `cb_length`, LUN or padding (rules R117, R233). Safe. -/
  | notMeaningfulCbw
  /-- A SCSI return code outside rule R282's table, -2 included (log 36), or one the phase has no rule for (rules R234,
  R241, R243). Safe. -/
  | scsiReturnCodeOutOfRange
  /-- An OUT payload packet that is empty or overruns the chunk or the host's length (rules R243, R244). Safe. -/
  | outPacketOutOfBounds
  /-- `rx_flag` served in a phase that takes no packet (rule R245). Safe. -/
  | rxInWrongPhase
  /-- `tx_flag` served in a phase that sends no packet (rule R249). Safe. -/
  | txInWrongPhase
  /-- READ(10) or WRITE(10) beyond the capacity (rule R325). Safe. -/
  | lbaOutOfRange
  /-- READ(10) or WRITE(10) on an absent medium (rule R325). Safe. -/
  | mediumAccessWhileNotPresent
  /-- A buffer command with `HAS_BUFFER_CMDS` (rule R331). Safe. -/
  | bufferCommandsNotSpecified
  /-- A vendor callback's payload of 0 or more than 512 bytes with code 1 or 2 (rule R333). Safe. -/
  | vendorPayloadOutOfRange
deriving DecidableEq, Repr

/-- Why an instruction has no meaning in this model. -/
inductive Refusal where
  /-- Raised by `exec` for an instruction whose meaning is not written yet; none is left. Safe. -/
  | notModelled (mnemonic : String)
deriving DecidableEq, Repr

/-! ## Power-on -/

/-- A half nobody configured (rule R52). -/
def Half.off : Half := ⟨.disabled, false, 0⟩

/-- A slot nobody configured (rule R52; its type, log 9). -/
def Endpoint.off : Endpoint := ⟨.control, Half.off, Half.off, none, none, none⟩

/-- The CBW latch cleared (rules R52, R250). -/
def zeroCbw : Cbw := ⟨0#32, 0#32, 0#32, 0#8, 0#8, 0#8, List.replicate 16 0#8⟩

/-- The CSW latch cleared (rules R52, R250). -/
def zeroCsw : Csw := ⟨0#32, 0#32, 0#8⟩

/-- No sense (rules R52, R287). -/
def noSense : Sense := ⟨0x70#8, 0#4, 0#8, 0#8, 0#32, 0#32, 10#8⟩

/-- The machine after power-on, before `RegisterInterface` and `Start` (rule R52), with the reference configuration of
rule R8 (log 13). -/
def State.reset : State where
  usb :=
    { enumState := .powered, devAddress := 0#7, pendingAddress := none, configValue := 0#8, pullup := false,
      ep := Vector.replicate 8 Endpoint.off, setup := ⟨0#8, 0#8, 0#16, 0#16, 0#16⟩, ifdrv := [none] }
  bot :=
    { phase := .awaitCbw, cbw := zeroCbw, csw := zeroCsw, dataOffset := 0#32, dataLen := 0#32, moreData := false,
      resetPending := false, rxFlag := false, txFlag := false, errFlag := false, rstFlag := false, dataBuf := [] }
  scsi := { ctx := 0#32, sense := noSense, lun := [⟨.ready, 0x4000#32, true, 0, false⟩], inLen := 0#32, code := 0 }
  pma := []
  medium := ⟨[], 0, []⟩
  inputs := []
  cfg := Config.default

end Sys2Proof.Machine
end

