-- ==== Sys2Proof/Machine/Operands.lean ====
section
/-! DEFINITION. The operand forms: the sub-fields of wValue and wIndex (rules R67, R93), the halves of the endpoint
table and the lookup of a half from wIndex (rule R184), the host's direction class and meaningfulness of a CBW (rules
R95, R117), and the byte forms of the CSW and the sense record (rules R96, R107). -/

namespace Sys2Proof.Machine

/-! ## Fields of a setup packet -/

/-- `wIndex[3:0]`, the endpoint number (rule R67). -/
def epNumber (wIndex : Word16) : Nat := (wIndex.extractLsb' 0 4).toNat

/-- `wIndex[7]`, the direction (rule R67). -/
def epDir (wIndex : Word16) : Dir := if wIndex.extractLsb' 7 1 = 1#1 then .dIn else .dOut

/-- `wIndex[7:0]`, the interface number (rule R93). -/
def ifaceNumber (wIndex : Word16) : Nat := (wIndex.extractLsb' 0 8).toNat

/-- `wValue[6:0]`, the address of SET_ADDRESS (rules R93, R190). -/
def addressField (wValue : Word16) : BitVec 7 := wValue.extractLsb' 0 7

/-- `wValue[7:0]`, the configuration value of SET_CONFIGURATION (rules R93, R196). -/
def configField (wValue : Word16) : Byte := wValue.extractLsb' 0 8

/-! ## Halves of the endpoint table -/

/-- The half of a slot in a direction (rule R26). -/
def Endpoint.half (e : Endpoint) (d : Dir) : Half :=
  match d with
  | .dIn => e.tx
  | .dOut => e.rx

/-- A slot with one half replaced. -/
def Endpoint.withHalf (e : Endpoint) (d : Dir) (h : Half) : Endpoint :=
  match d with
  | .dIn => { e with tx := h }
  | .dOut => { e with rx := h }

/-- The derived attribute `direction` of rule R27, `none` for BOTH: BOTH for CONTROL or when both callbacks are set,
OUT when only `cb_rx` is, IN when only `cb_tx` is. DESIGN CHOICE (log 37): IN also for a slot that is not CONTROL and has
neither callback, which rule R27 gives no direction. -/
def Endpoint.direction (e : Endpoint) : Option Dir :=
  if e.type = .control then none
  else if e.cbRx.isSome then (if e.cbTx.isSome then none else some .dOut)
  else some .dIn

/-- Slot `n` of the table. -/
def State.ep (s : State) (n : Fin 8) : Endpoint := s.usb.ep[n]

/-- The state with slot `n` replaced. -/
def State.setEp (s : State) (n : Fin 8) (e : Endpoint) : State :=
  { s with usb := { s.usb with ep := s.usb.ep.set n e } }

/-- The half of slot `n` in direction `d`. -/
def State.half (s : State) (n : Fin 8) (d : Dir) : Half := (s.ep n).half d

/-- The state with that half replaced. -/
def State.setHalf (s : State) (n : Fin 8) (d : Dir) (h : Half) : State := s.setEp n ((s.ep n).withHalf d h)

/-- `ep_half(wIndex)` of rule R184: the half an endpoint-recipient request names, or none where the rule stalls. -/
def epHalf (wIndex : Word16) (s : State) : Option (Fin 8 × Dir) :=
  if h : epNumber wIndex < 8 then
    if (s.half ⟨epNumber wIndex, h⟩ (epDir wIndex)).state = .disabled then none
    else some (⟨epNumber wIndex, h⟩, epDir wIndex)
  else none

/-! ## Table sizes and lookups -/

/-- `N_LUN` (rules R8, R46). -/
def State.nLun (s : State) : Nat := s.scsi.lun.length

/-- `N_IF` (rules R8, R34). -/
def State.nIf (s : State) : Nat := s.usb.ifdrv.length

/-- `usb.ifdrv[i]`: none where `i >= N_IF` or the entry is null. -/
def State.driver (s : State) (i : Nat) : Option Driver := (s.usb.ifdrv[i]?).join

/-- The number of the LUN the current CBW addresses (rule R290). -/
def State.curLunIndex (s : State) : Nat := s.bot.cbw.lun.toNat

/-- The record of the LUN the current CBW addresses (rule R290). -/
def State.curLun (s : State) : Option Lun := s.scsi.lun[s.curLunIndex]?

/-! ## The CBW -/

/-- The host's expectation (rule R95). -/
inductive HostClass where
  | hn
  | hi
  | ho
deriving DecidableEq, Repr

/-- The host direction class of a CBW (rule R95). -/
def hostClass (c : Cbw) : HostClass :=
  if c.dtl = 0#32 then .hn else if c.flags.extractLsb' 7 1 = 1#1 then .hi else .ho

/-- The CBW is meaningful (rules R117, R233): length 1 to 16, a LUN of the table, zero bytes after the command. -/
def meaningfulCbw (c : Cbw) (s : State) : Bool :=
  decide (1 ≤ c.cbLength.toNat) && decide (c.cbLength.toNat ≤ 16) && decide (c.lun.toNat < s.nLun)
    && (c.cb.drop c.cbLength.toNat).all (fun b => b == 0#8)

/-! ## Emitted byte forms -/

/-- `encode_csw(c)` of rule R96. -/
def encodeCsw (c : Csw) : List Byte :=
  [0x55#8, 0x53#8, 0x42#8, 0x53#8] ++ putLe32 c.tag ++ putLe32 c.residue ++ [c.status]

/-- `encode_sense(s)` of rule R107. -/
def encodeSense (s : Sense) : List Byte :=
  [s.responseCode, 0x00#8, 0#4 ++ s.key] ++ putBe32 s.information ++ [s.additionalLength]
    ++ putBe32 s.commandSpecific ++ [s.asc, s.ascq, 0x00#8, 0x00#8, 0x00#8, 0x00#8]

end Sys2Proof.Machine
end

