-- ==== Sys2Proof/Machine/Flags.lean ====
section
/-! DEFINITION. Every flag computation (rules R29, R39 to R41, R50): toggles, the halted bit, the four ISR-to-Tick
flags, more_data, the reset request, and the residue (rules R270, R271). -/

namespace Sys2Proof.Machine

/-- The derived halted bit (rules R28, R183). -/
def Half.halted (h : Half) : Bool := h.state == .stall

/-- The toggle of a half after `ep_set_state` moves it to `new` (rules R29, R143): 0 when the half leaves STALL on an
endpoint other than 0, else unchanged. -/
def toggleAfter (n : Fin 8) (h : Half) (new : HalfState) : Bool :=
  if h.state = .stall ∧ new ≠ .stall ∧ n ≠ 0 then false else h.toggle

/-- `bot.rx_flag <- 1` (rule R226). -/
def State.setRxFlag (s : State) : State := { s with bot := { s.bot with rxFlag := true } }

/-- `bot.tx_flag <- 1` (rule R227). -/
def State.setTxFlag (s : State) : State := { s with bot := { s.bot with txFlag := true } }

/-- `bot.err_flag <- 1` (rule R228). -/
def State.setErrFlag (s : State) : State := { s with bot := { s.bot with errFlag := true } }

/-- `bot.rx_flag <- 0` (rule R231). -/
def State.clearRxFlag (s : State) : State := { s with bot := { s.bot with rxFlag := false } }

/-- `bot.tx_flag <- 0` (rule R231). -/
def State.clearTxFlag (s : State) : State := { s with bot := { s.bot with txFlag := false } }

/-- `bot.err_flag <- 0` (rule R231). -/
def State.clearErrFlag (s : State) : State := { s with bot := { s.bot with errFlag := false } }

/-- `bot.rst_flag <- 0` (rule R231). -/
def State.clearRstFlag (s : State) : State := { s with bot := { s.bot with rstFlag := false } }

/-- A session reset is requested: phase RECOVERY, `reset_pending`, `rst_flag` together (rules R40, R225, R229, R230). -/
def State.requestReset (s : State) : State :=
  { s with bot := { s.bot with phase := .recovery, resetPending := true, rstFlag := true } }

/-- `more_data` after a SCSI return code (rules R39, R50; log 17). -/
def moreDataOf (code : Int) : Bool := code == 2 || code == 3

/-- `bot.csw.status <- v` (rules R37, R352, R353). -/
def State.setStatus (s : State) (v : Byte) : State :=
  { s with bot := { s.bot with csw := { s.bot.csw with status := v } } }

/-- `n` payload bytes moved: offset up, residue down (rules R240, R243, R271). -/
def State.moved (s : State) (n : Nat) : State :=
  { s with bot := { s.bot with
      dataOffset := s.bot.dataOffset + BitVec.ofNat 32 n,
      csw := { s.bot.csw with residue := s.bot.csw.residue - BitVec.ofNat 32 n } } }

/-- `bot.phase <- p`. -/
def State.setPhase (s : State) (p : Phase) : State := { s with bot := { s.bot with phase := p } }

end Sys2Proof.Machine
end

