-- ==== Sys2Proof/Machine/Ops.lean ====
section
/-! DEFINITION. The named operations every meaning is made of: memory ranges, packet memory (rules R61 to R66), the
device layer's operations (rules R141 to R145), the EP0 engine's replies (rules R150 to R152), the LUN oracle (rule
R18), the sense record (rules R284 to R289), and the three errors with the ways out of them (rules R350 to R367). -/

namespace Sys2Proof.Machine

/-- The outcome of one step. -/
abbrev Res := Host.Outcome State Fault Refusal

/-- Go on from a next state; a fault or a refusal stays. -/
def andThen (o : Res) (f : State → Res) : Res :=
  match o with
  | .next s => f s
  | .fault r => .fault r
  | .refused r => .refused r

/-! ## Memories -/

/-- The byte at an address; an unlisted address reads as 00 (log 7). -/
def Mem.read : Mem → Nat → Byte
  | [], _ => 0#8
  | (k, b) :: m, a => if k = a then b else Mem.read m a

/-- `n` bytes from `off` on. -/
def Mem.readRange (m : Mem) (off : Nat) : Nat → List Byte
  | 0 => []
  | n + 1 => Mem.read m off :: Mem.readRange m (off + 1) n

/-- The cells of a byte sequence from `off` on: the zero bytes are not listed. -/
def Mem.cells (off : Nat) : List Byte → Mem
  | [] => []
  | b :: bs => if b = 0#8 then Mem.cells (off + 1) bs else (off, b) :: Mem.cells (off + 1) bs

/-- `bytes` stored from `off` on. -/
def Mem.write (m : Mem) (off : Nat) (bytes : List Byte) : Mem :=
  m.filter (fun c => decide (c.1 < off)) ++ Mem.cells off bytes
    ++ m.filter (fun c => decide (off + bytes.length ≤ c.1))

/-- The cells rise strictly from `lo` on and none is zero. -/
def Mem.wfFrom (lo : Nat) : Mem → Bool
  | [] => true
  | (a, b) :: m => decide (lo ≤ a) && b != 0#8 && Mem.wfFrom (a + 1) m

/-- The canonical form of a memory. -/
def Mem.wf (m : Mem) : Bool := Mem.wfFrom 0 m

/-! ## Packet memory -/

/-- The static offset of a slot's transmit buffer (rules R64, R146). -/
def txOffset (n : Fin 8) : Option Nat := if n = 0 then some 0x80 else if n = 1 then some 0x180 else none

/-- The static offset of a slot's receive buffer (rules R64, R146). -/
def rxOffset (n : Fin 8) : Option Nat := if n = 0 then some 0x40 else if n = 2 then some 0x100 else none

/-- Bytes filled with zeros to whole packet-memory words of 4 bytes (rule R62; log 10). -/
def padWord (bytes : List Byte) : List Byte := bytes ++ List.replicate ((4 - bytes.length % 4) % 4) 0#8

/-- `PmaWrite(off, n, bytes)` (rules R62, R73): whole aligned words, inside the sized aperture (log 20). -/
def pmaWrite (off : Nat) (bytes : List Byte) (s : State) : Res :=
  if off % 4 ≠ 0 then .fault .misalignedPmaWrite
  else if s.cfg.pmaSize < off + (padWord bytes).length then .fault .packetMemoryOutOfRange
  else .next { s with pma := Mem.write s.pma off (padWord bytes) }

/-- `usb.ep[n].rx_buf[0 .. rx_count-1]`, the view of packet memory of rules R31 and R66. -/
def State.rxBuf (s : State) (n : Fin 8) : List Byte :=
  match rxOffset n with
  | none => []
  | some off => Mem.readRange s.pma off (s.half n .dOut).count

/-- `usb.ep[n].tx_buf[0 .. tx_count-1]`, the view of packet memory of rules R31 and R65. -/
def State.txBuf (s : State) (n : Fin 8) : List Byte :=
  match txOffset n with
  | none => []
  | some off => Mem.readRange s.pma off (s.half n .dIn).count

/-! ## The device layer's operations -/

/-- A slot as `ep_configure` leaves it: states from the callbacks, toggles and counts 0 (rule R142). -/
def configured (type : EpType) (rx tx release : Option EpCallback) : Endpoint where
  type := type
  rx := ⟨if rx.isSome then .valid else .disabled, false, 0⟩
  tx := ⟨if tx.isSome then .nak else .disabled, false, 0⟩
  cbRx := rx
  cbTx := tx
  cbRelease := release

/-- `ep_configure(n, type, {rx, tx, release})` (rule R142). The static table has exactly four entries, both halves of
slot 0, the TX half of slot 1 and the RX half of slot 2; configuring any other half stops (rules R64, R146). -/
def epConfigure (n : Fin 8) (type : EpType) (rx tx release : Option EpCallback) (s : State) : Res :=
  if 2 < n ∨ (rx.isSome ∧ (rxOffset n).isNone) ∨ (tx.isSome ∧ (txOffset n).isNone) then
    .fault .noStaticBufferForEndpoint
  else .next (s.setEp n (configured type rx tx release))

/-- `ep_set_state(n, dir, new)` (rule R143). -/
def epSetState (n : Fin 8) (d : Dir) (new : HalfState) (s : State) : State :=
  s.setHalf n d { s.half n d with state := new, toggle := toggleAfter n (s.half n d) new }

/-- A half taken down, toggle 0 (rule R147) or kept (rule R225). -/
def disableHalf (n : Fin 8) (d : Dir) (s : State) : State :=
  s.setHalf n d { s.half n d with state := .disabled }

/-- `send(n, bytes)` (rules R65, R144): buffer and count first, then VALID. DESIGN CHOICE (log 35): on a half with no
entry in the static table, which no configured slot has, it stops with the name rule R142 gives. -/
def send (n : Fin 8) (bytes : List Byte) (s : State) : Res :=
  if 64 < bytes.length then .fault .sendTooLong
  else if (s.half n .dIn).state ≠ .nak then .fault .sendHalfNotIdle
  else
    match txOffset n with
    | none => .fault .noStaticBufferForEndpoint
    | some off =>
      andThen (pmaWrite off bytes s) fun s =>
        .next (s.setHalf n .dIn { s.half n .dIn with count := bytes.length, state := .valid })

/-- `register_interface(i, d)` (rule R145). -/
def registerInterface (i : Nat) (d : Driver) (s : State) : Res :=
  if s.nIf ≤ i then .fault .interfaceIndexOutOfRange
  else .next { s with usb := { s.usb with ifdrv := s.usb.ifdrv.set i (some d) } }

/-- EP0 configured as control, RX VALID and TX NAK (rules R141, R147). -/
def configureEp0 (s : State) : Res := epConfigure 0 .control (some .ep0Engine) (some .ep0Engine) none s

/-- `start()` (rule R141). -/
def start (s : State) : Res :=
  andThen
    (configureEp0 { s with usb := { s.usb with
        devAddress := 0#7, pendingAddress := none, configValue := 0#8, enumState := .powered } })
    fun s => .next { s with usb := { s.usb with pullup := true } }

/-- A callback of each registered driver, in index order (rules R147, R162, R196). -/
def forDrivers (f : Driver → State → Res) : List (Option Driver) → State → Res
  | [], s => .next s
  | none :: ds, s => forDrivers f ds s
  | some d :: ds, s => andThen (f d s) (forDrivers f ds)

/-! ## The EP0 engine -/

/-- `ep0_reply(bytes)` (rule R150): one packet, truncated to wLength. -/
def ep0Reply (wLength : Word16) (bytes : List Byte) (s : State) : Res := send 0 (bytes.take wLength.toNat) s

/-- `ep0_ack()` (rule R151): the zero-length status packet. -/
def ep0Ack (s : State) : Res := send 0 [] s

/-- TAKING an EP0 protocol error, `raise Ep0Stall` (rules R152, R351, R363): the TX half to STALL, nothing else. -/
def ep0Stall (s : State) : State := epSetState 0 .dIn .stall s

/-- EP0's RX half re-armed after every reception (rule R155). -/
def rearmEp0 (s : State) : State := epSetState 0 .dOut .valid s

/-! ## The LUN oracle -/

/-- One LUN call: it is recorded and the medium's next answer is taken, a free one where none is queued (rule R18,
log 6, log 26). -/
def lunCall (c : LunCall) (s : State) : LunAnswer × State :=
  match s.medium.answers with
  | a :: as => (a, { s with medium := { s.medium with answers := as, calls := s.medium.calls ++ [c] } })
  | [] =>
    (Config.freeAnswer s.medium.freeCount,
      { s with medium := { s.medium with
          freeCount := s.medium.freeCount + 1, calls := s.medium.calls ++ [c] } })

/-! ## SCSI: return codes, sense, chunks -/

/-- A handler's return (rule R282). -/
def State.ret (s : State) (code : Int) : State := { s with scsi := { s.scsi with code := code } }

/-- `set_sense(key, asc, ascq)` (rule R284). -/
def setSense (key : BitVec 4) (asc ascq : Byte) (s : State) : State :=
  { s with scsi := { s.scsi with sense := ⟨0x70#8, key, asc, ascq, 0#32, 0#32, 10#8⟩ } }

/-- TAKING a SCSI command error in the handler, `raise CommandFailed(key, asc, ascq)` (rules R284, R353): the sense is
set and the negative code returned. -/
def commandFailed (key : BitVec 4) (asc ascq : Byte) (code : Int) (s : State) : State :=
  (setSense key asc ascq s).ret code

/-- `scsi.ctx <- v`. -/
def State.setCtx (s : State) (v : Word32) : State := { s with scsi := { s.scsi with ctx := v } }

/-- A chunk placed in `bot.data_buf` from its first byte on (at most its 512 bytes), its length in `bot.data_len`
(rules R42, R289; log 28). -/
def putChunk (bytes : List Byte) (s : State) : State :=
  { s with bot := { s.bot with
      dataBuf := Mem.write s.bot.dataBuf 0 (bytes.take 512), dataLen := BitVec.ofNat 32 bytes.length } }

/-- `reply(bytes)` (rule R289): a single chunk, code 1. -/
def reply (bytes : List Byte) (s : State) : State := (putChunk bytes s).ret 1

/-- `scsi_complete()` (rule R286). -/
def scsiComplete (s : State) : State := s.setCtx 0#32

/-- `scsi_reset()` (rule R287). -/
def scsiReset (s : State) : State := { s with scsi := { s.scsi with ctx := 0#32, sense := noSense } }

/-! ## The BOT session's errors and the ways out -/

/-- `arm_out()` (rule R238). -/
def armOut (s : State) : State :=
  if (s.half 2 .dOut).state = .nak then epSetState 2 .dOut .valid s else s

/-- The slot and direction of a bulk endpoint: bulk-IN is slot 1, bulk-OUT slot 2 (rule R7). -/
def bulkSlot (d : Dir) : Fin 8 :=
  match d with
  | .dIn => 1
  | .dOut => 2

/-- `bot_stall(dir)` (rule R246): entering ERROR, for a phase error or a failed command with data outstanding. -/
def botStall (d : Dir) (s : State) : State := (epSetState (bulkSlot d) d .stall s).setPhase .error

/-- `enter_await_csw()` (rule R247): the transaction's end, the CSW queued. -/
def enterAwaitCsw (s : State) : Res :=
  andThen (send 1 (encodeCsw s.bot.csw) (scsiComplete s)) fun s => .next (s.setPhase .awaitCsw)

/-- TAKING a BOT phase error without a stall, `raise PhaseError` (rules R352, R363): cases 2, 3, 7 and 13. -/
def phaseErrorNow (s : State) : Res := enterAwaitCsw (s.setStatus 2#8)

/-- TAKING a BOT phase error with a stall (rules R352, R363): cases 8 and 10. -/
def phaseErrorStall (d : Dir) (s : State) : Res := .next (botStall d (s.setStatus 2#8))

/-- `msc_release(n)` (rule R228), the first half of a RETURN from ERROR (rule R364): VALID (0) when the session waits
for a CBW on bulk-OUT, else NAK (1) with `err_flag`. -/
def mscRelease (n : Fin 8) (s : State) : Nat × State :=
  if s.bot.phase = .awaitCbw ∧ n = 2 then (0, s) else (1, s.setErrFlag)

/-- The release decision for a half: the slot's callback, or the default of rule R186. -/
def releaseHalf (n : Fin 8) (d : Dir) (s : State) : Nat × State :=
  match (s.ep n).cbRelease with
  | some _ => mscRelease n s
  | none => (if d = .dOut then 0 else 1, s)

/-- A halt cleared by CLEAR_FEATURE(ENDPOINT_HALT) (rules R186, R366). -/
def clearHalt (n : Fin 8) (d : Dir) (s : State) : State :=
  epSetState n d (if (releaseHalf n d s).1 = 0 then .valid else .nak) (releaseHalf n d s).2

/-- `bot_on_err()` (rule R232), the second half of a RETURN from ERROR: the deferred CSW, or the un-armed CSW again. -/
def botOnErr (s : State) : Res :=
  if s.bot.phase = .error ∧ (s.half 1 .dIn).state ≠ .stall ∧ (s.half 2 .dOut).state ≠ .stall then
    enterAwaitCsw s
  else if s.bot.phase = .awaitCsw ∧ s.bot.txFlag = false ∧ (s.half 1 .dIn).state = .nak then
    send 1 (encodeCsw s.bot.csw) s
  else .next s

/-- `bot_recover()` (rule R250). -/
def botRecover (s : State) : State :=
  let s := scsiReset { s with bot := { s.bot with
      rxFlag := false, txFlag := false, errFlag := false, cbw := zeroCbw, csw := zeroCsw,
      dataOffset := 0#32, dataLen := 0#32, moreData := false, resetPending := false } }
  let s := if (s.half 1 .dIn).state = .valid then epSetState 1 .dIn .nak s else s
  let s := if (s.half 2 .dOut).state = .nak then epSetState 2 .dOut .valid s else s
  s.setPhase .awaitCbw

end Sys2Proof.Machine
end

