-- ==== Sys2Proof/Machine/Bus.lean ====
section
/-! DEFINITION. What the host observes (00_scope.md rule R15): what the controller answers to a token, a function of
the block's state. -/

namespace Sys2Proof.Machine

/-- An answer on the bus. `silent` is no response. -/
inductive BusAnswer where
  | data (bytes : List Byte)
  | ack
  | nak
  | stall
  | silent
deriving DecidableEq, Repr

/-- The device sees tokens of this address (rules R15, R25). -/
def State.addressed (s : State) (addr : BitVec 7) : Bool := s.usb.pullup && s.usb.devAddress == addr

/-- The answer to an IN token for slot `n` at address `addr` (rule R15). -/
def answerIn (addr : BitVec 7) (n : Fin 8) (s : State) : BusAnswer :=
  if s.addressed addr then
    match (s.half n .dIn).state with
    | .valid => .data (s.txBuf n)
    | .stall => .stall
    | .nak => .nak
    | .disabled => .silent
  else .silent

/-- The answer to an OUT token with data for slot `n` at address `addr` (rule R15). -/
def answerOut (addr : BitVec 7) (n : Fin 8) (s : State) : BusAnswer :=
  if s.addressed addr then
    match (s.half n .dOut).state with
    | .valid => .ack
    | .stall => .stall
    | .nak => .nak
    | .disabled => .silent
  else .silent

end Sys2Proof.Machine
end

