-- ==== Sys2Proof/Machine/Formats.lean ====
section
/-! DEFINITION. The constant byte strings the block answers with: the USB descriptors (rules R101 to R105 of
30_encoding.md) and the INQUIRY and VPD blocks (rules R296 to R299 of 43_scsi_dispatch_cdb6.md). -/

namespace Sys2Proof.Machine

/-- `DESC_DEVICE` (rule R101). -/
def descDevice : List Byte :=
  [0x12#8, 0x01#8, 0x00#8, 0x02#8, 0x00#8, 0x00#8, 0x00#8, 0x40#8, 0x08#8, 0x36#8, 0x20#8, 0xC7#8,
   0x01#8, 0x01#8, 0x01#8, 0x02#8, 0x00#8, 0x01#8]

/-- `DESC_QUALIFIER` (rule R102). -/
def descQualifier : List Byte :=
  [0x0A#8, 0x06#8, 0x00#8, 0x02#8, 0x00#8, 0x00#8, 0x00#8, 0x40#8, 0x00#8, 0x00#8]

/-- `DESC_CONFIG` (rule R103), with bConfigurationValue = `BCFG_VALUE`. -/
def descConfig (c : Config) : List Byte :=
  [0x09#8, 0x02#8, 0x20#8, 0x00#8, 0x01#8, c.bcfgValue, 0x00#8, 0x80#8, 0xFA#8] ++
  [0x09#8, 0x04#8, 0x00#8, 0x00#8, 0x02#8, 0x08#8, 0x06#8, 0x50#8, 0x00#8] ++
  [0x07#8, 0x05#8, 0x81#8, 0x02#8, 0x40#8, 0x00#8, 0x00#8] ++
  [0x07#8, 0x05#8, 0x02#8, 0x02#8, 0x40#8, 0x00#8, 0x00#8]

/-- The UTF-16LE bytes of a string (rule R105). -/
def utf16le : List Word16 → List Byte
  | [] => []
  | c :: cs => putLe16 c ++ utf16le cs

/-- `DESC_STR[i]` (rules R104, R105), or none where `i >= STR_COUNT`. -/
def descString (c : Config) (i : Nat) : Option (List Byte) :=
  match i with
  | 0 => some [0x04#8, 0x03#8, 0x09#8, 0x04#8]
  | k + 1 =>
    match c.strings[k]? with
    | none => none
    | some t => some ([BitVec.ofNat 8 (2 + 2 * t.length), 0x03#8] ++ utf16le t)

/-- `VPD_00` (rule R297). -/
def vpd00 : List Byte := [0x00#8, 0x00#8, 0x00#8, 0x03#8, 0x00#8, 0x80#8, 0x83#8]

/-- `VPD_80` (rule R298). -/
def vpd80 (c : Config) : List Byte :=
  [0x00#8, 0x80#8, 0x00#8, BitVec.ofNat 8 c.vpdSerial.length] ++ c.vpdSerial

/-- `VPD_83` (rule R299). -/
def vpd83 (c : Config) : List Byte :=
  [0x00#8, 0x83#8] ++ putBe16 (BitVec.ofNat 16 c.vpdDevid.length) ++ c.vpdDevid

/-- The mode parameter data of MODE SENSE(6) (rule R302). -/
def modeData (c : Config) (writable : Bool) : List Byte :=
  [BitVec.ofNat 8 (3 + c.modePages.length), 0x00#8, if writable then 0x00#8 else 0x80#8, 0x00#8] ++ c.modePages

/-- The READ FORMAT CAPACITIES data (rule R321). -/
def formatCapacities (capacity : Word32) : List Byte :=
  [0x00#8, 0x00#8, 0x00#8, 0x08#8] ++ putBe32 capacity ++ [0x02#8, 0x00#8, 0x02#8, 0x00#8]

/-- The READ CAPACITY data (rule R323). -/
def capacityData (capacity : Word32) : List Byte := putBe32 (capacity - 1#32) ++ putBe32 512#32

end Sys2Proof.Machine
end

