-- ==== Sys2Proof/Machine/Scsi.lean ====
section
/-! DEFINITION. The SCSI commands (43_scsi_dispatch_cdb6.md rules R281 to R305, 44_scsi_cdb10_vendor.md rules R320 to
R335): one meaning per row, one invocation of the command's handler for the LUN of the current CBW, its return code
left in `scsi.code`; and the dispatcher. -/

namespace Sys2Proof.Machine

/-- A handler on the LUN of the current CBW (rule R290). A CBW whose LUN is not of the table is never accepted (rule
R233; log 21). -/
def withLun (s : State) (f : Lun → Res) : Res :=
  match s.curLun with
  | none => .fault .notMeaningfulCbw
  | some l => f l

/-- `cmd_unsupported()` (rule R335). -/
def unsupported (s : State) : State := commandFailed 0x5#4 0x20#8 0x00#8 (-1) s

/-- `fail_invalid_field()` (rule R294). -/
def invalidField (s : State) : State := commandFailed 0x5#4 0x24#8 0x00#8 (-1) s

/-! ## 6-byte commands -/

/-- TEST UNIT READY (rule R291). -/
def execTestUnitReady (s : State) : Res :=
  withLun s fun l =>
    if l.state = .ready then .next (s.ret 0) else .next (commandFailed 0x2#4 0x3A#8 0x00#8 (-3) s)

/-- REQUEST SENSE: the response is built, then key, asc and ascq are cleared (rule R292). -/
def execRequestSense (s : State) : Res :=
  .next (reply (encodeSense s.scsi.sense)
    { s with scsi := { s.scsi with sense := { s.scsi.sense with key := 0#4, asc := 0#8, ascq := 0#8 } } })

/-- INQUIRY (rule R294). -/
def execInquiry (reserved : BitVec 7) (evpd : BitVec 1) (page : Byte) (s : State) : Res :=
  if reserved ≠ 0#7 then .next (invalidField s)
  else if evpd = 0#1 then
    if page ≠ 0x00#8 then .next (invalidField s) else .next (reply s.cfg.inqStd s)
  else if page = 0x00#8 then .next (reply vpd00 s)
  else if page = 0x80#8 then .next (reply (vpd80 s.cfg) s)
  else if page = 0x83#8 then .next (reply (vpd83 s.cfg) s)
  else .next (invalidField s)

/-- MODE SENSE(6) (rule R302). -/
def execModeSense6 (s : State) : Res := withLun s fun l => .next (reply (modeData s.cfg l.writable) s)

/-- START STOP UNIT: acknowledged (rule R304). -/
def execStartStopUnit (s : State) : Res := .next (s.ret 0)

/-- PREVENT ALLOW MEDIUM REMOVAL: acknowledged (rule R305). -/
def execPreventAllowMediumRemoval (s : State) : Res := .next (s.ret 0)

/-! ## 10-byte commands -/

/-- READ FORMAT CAPACITIES (rule R321). -/
def execReadFormatCapacities (s : State) : Res :=
  withLun s fun l => .next (reply (formatCapacities l.capacityBlocks) s)

/-- READ CAPACITY (rule R323). -/
def execReadCapacity10 (s : State) : Res := withLun s fun l => .next (reply (capacityData l.capacityBlocks) s)

/-- `check_medium_access(l, lba, n)` (rule R325), the sum in the naturals. -/
def checkMediumAccess (l : Lun) (lba : Word32) (n : Word16) (s : State) : Res :=
  if l.state ≠ .ready then .fault .mediumAccessWhileNotPresent
  else if l.capacityBlocks.toNat < lba.toNat + n.toNat then .fault .lbaOutOfRange
  else .next s

/-- READ(10)'s transfer of the block after the `ctx` blocks delivered (rule R326). -/
def readBlock (lba : Word32) (n : Word16) (s : State) : State :=
  let k := s.scsi.ctx
  let r := lunCall (.read s.curLunIndex (lba + k)) s
  if r.1.ok then
    ((putChunk r.1.block.toList r.2).setCtx (k + 1#32)).ret (if k.toNat + 1 < n.toNat then 2 else 1)
  else commandFailed 0x3#4 0x01#8 0x00#8 (-1) r.2

/-- READ(10) (rules R326, R327). -/
def execRead10 (lba : Word32) (n : Word16) (s : State) : Res :=
  withLun s fun l =>
    if n = 0#16 then .next (s.ret 0)
    else
      andThen (if s.scsi.ctx = 0#32 then checkMediumAccess l lba n s else .next s) fun s =>
        .next (readBlock lba n s)

/-- A write-side failure of the medium (rule R328). -/
def writeError (s : State) : State := commandFailed 0x3#4 0x0C#8 0x00#8 (-1) s

/-- WRITE(10)'s first invocation, after the checks: the preload, and the request for the first block (rule R328). -/
def writePreload (lba : Word32) (n : Word16) (s : State) : State :=
  let r := lunCall (.preload s.curLunIndex lba) s
  if r.1.ok then r.2.ret (if 1 < n.toNat then 3 else 4) else writeError r.2

/-- WRITE(10)'s completion, once its last block is written (rule R328). -/
def writeComplete (s : State) : State :=
  let r := lunCall (.complete s.curLunIndex) s
  if r.1.ok then r.2.ret 0 else writeError r.2

/-- WRITE(10)'s transfer of the block in `bot.data_buf` after the `ctx` blocks written (rule R328). -/
def writeBlock (lba : Word32) (n : Word16) (s : State) : State :=
  let k := s.scsi.ctx
  let r := lunCall (.write s.curLunIndex (lba + k) (Mem.readRange s.bot.dataBuf 0 512)) s
  if r.1.ok then
    if k.toNat + 1 < n.toNat then
      (r.2.setCtx (k + 1#32)).ret (if k.toNat + 2 < n.toNat then 3 else 4)
    else writeComplete (r.2.setCtx (k + 1#32))
  else writeError r.2

/-- WRITE(10) (rules R327, R328). -/
def execWrite10 (lba : Word32) (n : Word16) (s : State) : Res :=
  withLun s fun l =>
    if s.scsi.inLen = 0#32 then
      if l.writable = false then .next (commandFailed 0x7#4 0x27#8 0x00#8 (-3) s)
      else if n = 0#16 then .next (s.ret 0)
      else andThen (checkMediumAccess l lba n s) fun s => .next (writePreload lba n s)
    else .next (writeBlock lba n s)

/-- WRITE BUFFER (rule R331). -/
def execWriteBuffer (s : State) : Res :=
  if s.cfg.hasBufferCmds then .fault .bufferCommandsNotSpecified else .next (unsupported s)

/-- READ BUFFER (rule R331). -/
def execReadBuffer (s : State) : Res :=
  if s.cfg.hasBufferCmds then .fault .bufferCommandsNotSpecified else .next (unsupported s)

/-! ## Vendor groups and the rest -/

/-- What a vendor callback did to the target before it returned (rule R334 d, e; log 29). -/
def vendorEffects (v : VendorAnswer) (s : State) : State :=
  match v.sense with
  | none => s.setCtx v.ctx
  | some (key, asc, ascq) => setSense key asc ascq (s.setCtx v.ctx)

/-- A vendor command (rules R333, R334). -/
def execVendor (cb : List Byte) (s : State) : Res :=
  withLun s fun l =>
    if l.cmdVendor = false then .next (unsupported s)
    else
      let r := lunCall (.vendor s.curLunIndex cb s.scsi.inLen
        (Mem.readRange s.bot.dataBuf 0 s.scsi.inLen.toNat)) s
      let v := r.1.vendor
      if v.code = 1 ∨ v.code = 2 then
        if v.payload.length < 1 ∨ 512 < v.payload.length then .fault .vendorPayloadOutOfRange
        else .next ((putChunk v.payload (vendorEffects v r.2)).ret v.code)
      else .next ((vendorEffects v r.2).ret v.code)

/-- Every other operation code (rule R335). -/
def execCdbDefault (_op : Byte) (s : State) : Res := .next (unsupported s)

/-! ## The dispatcher -/

/-- The routing of rule R281, by the whole of byte 0. -/
def scsiRoute (cb : List Byte) (s : State) : Res :=
  let op := byteAt cb 0
  if op = 0x00#8 then execTestUnitReady s
  else if op = 0x03#8 then execRequestSense s
  else if op = 0x12#8 then
    execInquiry ((byteAt cb 1).extractLsb' 1 7) ((byteAt cb 1).extractLsb' 0 1) (byteAt cb 2) s
  else if op = 0x1A#8 then execModeSense6 s
  else if op = 0x1B#8 then execStartStopUnit s
  else if op = 0x1E#8 then execPreventAllowMediumRemoval s
  else if op = 0x23#8 then execReadFormatCapacities s
  else if op = 0x25#8 then execReadCapacity10 s
  else if op = 0x28#8 then execRead10 (be32 cb 2) (be16 cb 7) s
  else if op = 0x2A#8 then execWrite10 (be32 cb 2) (be16 cb 7) s
  else if op = 0x3B#8 then execWriteBuffer s
  else if op = 0x3C#8 then execReadBuffer s
  else if op.extractLsb' 6 2 = 0b11#2 then execVendor cb s
  else execCdbDefault op s

/-- `scsi_command(l, cb, in_len)` (rules R281, R288): `l` is the LUN of the CBW latch, the code is left in
`scsi.code`. -/
def scsiCommand (cb : List Byte) (inLen : Word32) (s : State) : Res :=
  scsiRoute cb { s with scsi := { s.scsi with inLen := inLen } }

end Sys2Proof.Machine
end

