-- ==== Sys2Proof/Machine/Bot.lean ====
section
/-! DEFINITION. The Bulk-Only Transport sequencer's main-loop half (42_bot_sequencer.md rules R233 to R249): CBW
acceptance, the thirteen-case classification, the data phases, the status phase. -/

namespace Sys2Proof.Machine

/-- A SCSI call for the current CBW, `more_data` following its code (rules R39, R288; log 17). -/
def scsiCall (inLen : Word32) (s : State) : Res :=
  andThen (scsiCommand s.bot.cbw.cb inLen s) fun s =>
    .next { s with bot := { s.bot with moreData := moreDataOf s.scsi.code } }

/-! ## Data-In -/

/-- The length of the next fragment (rule R242). -/
def fragmentLen (s : State) : Nat :=
  min (min 64 (s.bot.dataLen - s.bot.dataOffset).toNat) s.bot.csw.residue.toNat

/-- `send_fragment()` (rule R242). -/
def sendFragment (s : State) : Res :=
  send 1 (Mem.readRange s.bot.dataBuf s.bot.dataOffset.toNat (fragmentLen s)) s

/-- The SCSI layer's answer to a request for the next block of a data-in phase (rule R241). DESIGN CHOICE (log 36): of
the negative codes only -1 and -3 are a failed command; any other stops, as rule R282 says. -/
def continueWithBlock (s : State) : Res :=
  if s.scsi.code = 1 ∨ s.scsi.code = 2 then
    sendFragment { s with bot := { s.bot with dataOffset := 0#32 } }
  else if s.scsi.code = -1 ∨ s.scsi.code = -3 then .next (botStall .dIn (s.setStatus 1#8))
  else .fault .scsiReturnCodeOutOfRange

/-- `continue_data_in()` (rule R241): cases 5, 6 and 7 are decided here. -/
def continueDataIn (s : State) : Res :=
  if s.bot.csw.residue = 0#32 then
    if s.bot.dataOffset.toNat < s.bot.dataLen.toNat ∨ s.bot.moreData = true then phaseErrorNow s
    else enterAwaitCsw s
  else if s.bot.dataOffset.toNat < s.bot.dataLen.toNat then sendFragment s
  else if s.bot.moreData = true then andThen (scsiCall 0#32 s) continueWithBlock
  else .next (botStall .dIn s)

/-- `bot_on_tx()` in DATA_IN (rule R240): bytes count when the host has acknowledged them. -/
def onTxDataIn (s : State) : Res := continueDataIn (s.moved (s.half 1 .dIn).count)

/-! ## Data-Out -/

/-- `enter_discard()` (rule R244). -/
def enterDiscard (s : State) : State :=
  armOut { s with bot := { s.bot with dataLen := 0#32, dataOffset := 0#32, phase := .dataOut } }

/-- `bot_on_rx()` in discard mode (rule R244): counted and thrown away, the residue untouched. -/
def discardPacket (p : List Byte) (s : State) : Res :=
  if p.length = 0 ∨ (s.bot.cbw.dtl - s.bot.dataOffset).toNat < p.length then .fault .outPacketOutOfBounds
  else
    let s := { s with bot := { s.bot with dataOffset := s.bot.dataOffset + BitVec.ofNat 32 p.length } }
    if s.bot.dataOffset = s.bot.cbw.dtl then enterAwaitCsw s else .next (armOut s)

/-- The SCSI layer's answer to a whole chunk (rule R243): cases 11, 12 and 13. DESIGN CHOICE (log 36): of the negative
codes only -1 and -3 are a failed command. -/
def afterChunk (s : State) : Res :=
  if s.scsi.code = 3 ∨ s.scsi.code = 4 then
    if s.bot.csw.residue = 0#32 then phaseErrorNow s
    else .next (armOut { s with bot := { s.bot with dataOffset := 0#32 } })
  else if s.scsi.code = 0 then
    if s.bot.csw.residue = 0#32 then enterAwaitCsw s else .next (botStall .dOut s)
  else if s.scsi.code = -1 ∨ s.scsi.code = -3 then
    if s.bot.csw.residue = 0#32 then enterAwaitCsw (s.setStatus 1#8)
    else .next (botStall .dOut (s.setStatus 1#8))
  else .fault .scsiReturnCodeOutOfRange

/-- `bot_on_rx()` in DATA_OUT with a chunk wanted (rule R243). -/
def payloadPacket (p : List Byte) (s : State) : Res :=
  if p.length = 0 ∨ (s.bot.dataLen - s.bot.dataOffset).toNat < p.length ∨ s.bot.csw.residue.toNat < p.length then
    .fault .outPacketOutOfBounds
  else
    let s := State.moved
      { s with bot := { s.bot with dataBuf := Mem.write s.bot.dataBuf s.bot.dataOffset.toNat p } } p.length
    if s.bot.dataOffset = s.bot.dataLen then andThen (scsiCall s.bot.dataLen s) afterChunk
    else if s.bot.csw.residue = 0#32 then phaseErrorNow s
    else .next (armOut s)

/-- Row BULK_OUT_DEFAULT: a bulk-OUT packet that is no CBW. In AWAIT_CBW it is invalid (rules R117, R233), in DATA_OUT
it is payload (rules R113, R243, R244), in the other phases no packet can arrive (rule R245). -/
def execBulkOutDefault (p : List Byte) (s : State) : Res :=
  match s.bot.phase with
  | .awaitCbw => .fault .invalidCbw
  | .dataOut => if s.bot.dataLen = 0#32 then discardPacket p s else payloadPacket p s
  | .dataIn => .fault .rxInWrongPhase
  | .awaitCsw => .fault .rxInWrongPhase
  | .error => .fault .rxInWrongPhase
  | .recovery => .fault .rxInWrongPhase

/-! ## Command phase -/

/-- `bot_classify(code)` (rules R234, R235), the code in `scsi.code`. DESIGN CHOICE (log 36): of the negative codes
only those of rule R282's table, -1 and -3, are a failed command; any other code outside the table stops. -/
def botClassify (s : State) : Res :=
  let code := s.scsi.code
  if code = 0 ∨ code = -1 ∨ code = -3 then
    let s := if code < 0 then s.setStatus 1#8 else s
    match hostClass s.bot.cbw with
    | .hn => enterAwaitCsw s
    | .hi => .next (botStall .dIn s)
    | .ho => .next (enterDiscard s)
  else if code = 1 ∨ code = 2 then
    match hostClass s.bot.cbw with
    | .hn => phaseErrorNow s
    | .hi => sendFragment { s with bot := { s.bot with dataOffset := 0#32, phase := .dataIn } }
    | .ho => phaseErrorStall .dOut s
  else if code = 3 ∨ code = 4 then
    match hostClass s.bot.cbw with
    | .hn => phaseErrorNow s
    | .hi => phaseErrorStall .dIn s
    | .ho => .next (armOut { s with bot := { s.bot with dataLen := 512#32, dataOffset := 0#32, phase := .dataOut } })
  else .fault .scsiReturnCodeOutOfRange

/-- The latches a CBW's acceptance sets (rule R233). -/
def acceptCbw (c : Cbw) (s : State) : State :=
  { s with bot := { s.bot with
      cbw := c, csw := ⟨c.tag, c.dtl, 0#8⟩, dataOffset := 0#32, dataLen := 0#32, moreData := false } }

/-- Row CBW (rules R233, R234): accepted if meaningful, its command run, the outcome classified. -/
def execCbw (c : Cbw) (s : State) : Res :=
  if meaningfulCbw c s then andThen (scsiCall 0#32 (acceptCbw c s)) botClassify
  else .fault .notMeaningfulCbw

/-! ## Status phase -/

/-- `bot_on_tx()` (rules R240, R248, R249). -/
def botOnTx (s : State) : Res :=
  match s.bot.phase with
  | .dataIn => onTxDataIn s
  | .awaitCsw => .next (armOut (s.setPhase .awaitCbw))
  | .awaitCbw => .fault .txInWrongPhase
  | .dataOut => .fault .txInWrongPhase
  | .error => .fault .txInWrongPhase
  | .recovery => .fault .txInWrongPhase

end Sys2Proof.Machine
end

