-- ==== Sys2Proof/Machine/Standard.lean ====
section
/-! DEFINITION. The standard control requests (41_usb_control_requests.md rules R181 to R199, 40_usb_device_layer.md
rule R149): one meaning per row. Each is what runs between the controller's first effects on a SETUP and the re-arming
of EP0's RX half. A first-level row runs its second-level row (rule R115). -/

namespace Sys2Proof.Machine

/-! ## GET_STATUS -/

/-- GET_STATUS(device): self-powered 0, remote wake-up 0 (rule R181). -/
def execGetStatusDevice (a : SetupArgs) (s : State) : Res := ep0Reply a.wLength [0x00#8, 0x00#8] s

/-- GET_STATUS(interface) (rule R182). -/
def execGetStatusInterface (a : SetupArgs) (s : State) : Res := ep0Reply a.wLength [0x00#8, 0x00#8] s

/-- GET_STATUS(endpoint): the halted bit of the addressed half (rules R183, R184). -/
def execGetStatusEndpoint (a : SetupArgs) (s : State) : Res :=
  match epHalf a.wIndex s with
  | none => .next (ep0Stall s)
  | some (n, d) => ep0Reply a.wLength [if (s.half n d).halted then 0x01#8 else 0x00#8, 0x00#8] s

/-- GET_STATUS, any other recipient: STALL (rule R193). -/
def execGetStatusDefault (_rcp : BitVec 5) (_a : SetupArgs) (s : State) : Res := .next (ep0Stall s)

/-- GET_STATUS, by recipient (rules R181 to R183, R193). -/
def execGetStatus (rcp : BitVec 5) (a : SetupArgs) (s : State) : Res :=
  if rcp = 0x00#5 then execGetStatusDevice a s
  else if rcp = 0x01#5 then execGetStatusInterface a s
  else if rcp = 0x02#5 then execGetStatusEndpoint a s
  else execGetStatusDefault rcp a s

/-! ## GET_DESCRIPTOR -/

/-- GET_DESCRIPTOR(Device): the index is ignored (rules R101, R191). -/
def execGetDescriptorDevice (_rcp : BitVec 5) (_index : Byte) (_wIndex wLength : Word16) (s : State) : Res :=
  ep0Reply wLength descDevice s

/-- GET_DESCRIPTOR(Configuration) (rules R103, R191, R192). -/
def execGetDescriptorConfiguration (_rcp : BitVec 5) (_index : Byte) (_wIndex wLength : Word16) (s : State) : Res :=
  ep0Reply wLength (descConfig s.cfg) s

/-- GET_DESCRIPTOR(String): any language id, STALL from `STR_COUNT` on (rules R104, R105, R191). -/
def execGetDescriptorString (_rcp : BitVec 5) (index : Byte) (_wIndex wLength : Word16) (s : State) : Res :=
  match descString s.cfg index.toNat with
  | none => .next (ep0Stall s)
  | some bytes => ep0Reply wLength bytes s

/-- GET_DESCRIPTOR(Device qualifier) (rules R102, R191). -/
def execGetDescriptorDeviceQualifier (_rcp : BitVec 5) (_index : Byte) (_wIndex wLength : Word16) (s : State) : Res :=
  ep0Reply wLength descQualifier s

/-- GET_DESCRIPTOR, any other type: STALL (rule R191). -/
def execGetDescriptorDefault (_rcp : BitVec 5) (_type _index : Byte) (_wIndex _wLength : Word16) (s : State) : Res :=
  .next (ep0Stall s)

/-- GET_DESCRIPTOR, by wValue (rules R106, R191). -/
def execGetDescriptor (rcp : BitVec 5) (a : SetupArgs) (s : State) : Res :=
  let type := a.wValue.extractLsb' 8 8
  let index := a.wValue.extractLsb' 0 8
  if type = 0x01#8 then execGetDescriptorDevice rcp index a.wIndex a.wLength s
  else if type = 0x02#8 then execGetDescriptorConfiguration rcp index a.wIndex a.wLength s
  else if type = 0x03#8 then execGetDescriptorString rcp index a.wIndex a.wLength s
  else if type = 0x06#8 then execGetDescriptorDeviceQualifier rcp index a.wIndex a.wLength s
  else execGetDescriptorDefault rcp type index a.wIndex a.wLength s

/-! ## GET_CONFIGURATION, GET_INTERFACE -/

/-- GET_CONFIGURATION: one byte (rule R195). -/
def execGetConfiguration (_rcp : BitVec 5) (a : SetupArgs) (s : State) : Res :=
  ep0Reply a.wLength [s.usb.configValue] s

/-- GET_INTERFACE: 00 for a registered interface, else STALL (rule R198). -/
def execGetInterface (_rcp : BitVec 5) (a : SetupArgs) (s : State) : Res :=
  match s.driver (ifaceNumber a.wIndex) with
  | none => .next (ep0Stall s)
  | some _ => ep0Reply a.wLength [0x00#8] s

/-! ## CLEAR_FEATURE -/

/-- CLEAR_FEATURE(device): acknowledged, no effect (rule R185). -/
def execClearFeatureDevice (_a : SetupArgs) (s : State) : Res := ep0Ack s

/-- CLEAR_FEATURE(endpoint): ENDPOINT_HALT only; the release decision re-enables the half (rules R184, R186). -/
def execClearFeatureEndpoint (a : SetupArgs) (s : State) : Res :=
  if a.wValue ≠ 0#16 then .next (ep0Stall s)
  else
    match epHalf a.wIndex s with
    | none => .next (ep0Stall s)
    | some (n, d) => ep0Ack (clearHalt n d s)

/-- CLEAR_FEATURE, any other recipient: STALL (rule R187). -/
def execClearFeatureDefault (_rcp : BitVec 5) (_a : SetupArgs) (s : State) : Res := .next (ep0Stall s)

/-- CLEAR_FEATURE, by recipient (rules R185 to R187). -/
def execClearFeature (rcp : BitVec 5) (a : SetupArgs) (s : State) : Res :=
  if rcp = 0x00#5 then execClearFeatureDevice a s
  else if rcp = 0x02#5 then execClearFeatureEndpoint a s
  else execClearFeatureDefault rcp a s

/-! ## SET_FEATURE -/

/-- SET_FEATURE(device): acknowledged, no effect (rule R188). -/
def execSetFeatureDevice (_a : SetupArgs) (s : State) : Res := ep0Ack s

/-- SET_FEATURE(endpoint): ENDPOINT_HALT halts the half, but for endpoint 0 (rules R184, R189). -/
def execSetFeatureEndpoint (a : SetupArgs) (s : State) : Res :=
  if a.wValue ≠ 0#16 then .next (ep0Stall s)
  else
    match epHalf a.wIndex s with
    | none => .next (ep0Stall s)
    | some (n, d) => ep0Ack (if n ≠ 0 then epSetState n d .stall s else s)

/-- SET_FEATURE, any other recipient: STALL (rule R189). -/
def execSetFeatureDefault (_rcp : BitVec 5) (_a : SetupArgs) (s : State) : Res := .next (ep0Stall s)

/-- SET_FEATURE, by recipient (rules R188, R189). -/
def execSetFeature (rcp : BitVec 5) (a : SetupArgs) (s : State) : Res :=
  if rcp = 0x00#5 then execSetFeatureDevice a s
  else if rcp = 0x02#5 then execSetFeatureEndpoint a s
  else execSetFeatureDefault rcp a s

/-! ## SET_ADDRESS, SET_DESCRIPTOR -/

/-- SET_ADDRESS: recorded now, committed at the next TxDone(0) (rules R158, R190). -/
def execSetAddress (_rcp : BitVec 5) (a : SetupArgs) (s : State) : Res :=
  ep0Ack { s with usb := { s.usb with pendingAddress := some (addressField a.wValue) } }

/-- SET_DESCRIPTOR: always STALL (rule R194). -/
def execSetDescriptor (_rcp : BitVec 5) (_a : SetupArgs) (s : State) : Res := .next (ep0Stall s)

/-! ## SET_CONFIGURATION -/

/-- The enumeration state after SET_CONFIGURATION(cfg) (rules R164, R196). -/
def enumAfterConfig (cfg : Byte) (e : EnumState) : EnumState :=
  if cfg ≠ 0#8 ∧ e = .address then .configured
  else if cfg = 0#8 ∧ e = .configured then .address
  else e

/-- `msc_enable(cfg)` (rule R225): the bulk endpoints configured, or taken down; a session reset requested. -/
def mscEnable (cfg : Byte) (s : State) : Res :=
  if cfg ≠ 0#8 then
    andThen (epConfigure 1 .bulk none (some .mscTx) (some .mscRelease) s) fun s =>
      andThen (epConfigure 2 .bulk (some .mscRx) none (some .mscRelease) s) fun s => .next s.requestReset
  else .next (disableHalf 2 .dOut (disableHalf 1 .dIn s)).requestReset

/-- A driver's `enable(cfg)`, skipped where null (rules R145, R196). -/
def enableDriver (cfg : Byte) (d : Driver) (s : State) : Res := if d.enable then mscEnable cfg s else .next s

/-- SET_CONFIGURATION: stored, every driver's `enable` called, acknowledged (rule R196). -/
def execSetConfiguration (_rcp : BitVec 5) (a : SetupArgs) (s : State) : Res :=
  andThen
    (forDrivers (enableDriver (configField a.wValue)) s.usb.ifdrv
      { s with usb := { s.usb with
          configValue := configField a.wValue,
          enumState := enumAfterConfig (configField a.wValue) s.usb.enumState } })
    ep0Ack

/-! ## SET_INTERFACE, and everything else -/

/-- SET_INTERFACE: alternate setting 0 of a registered interface is acknowledged, else STALL (rule R199). -/
def execSetInterface (_rcp : BitVec 5) (a : SetupArgs) (s : State) : Res :=
  match s.driver (ifaceNumber a.wIndex) with
  | none => .next (ep0Stall s)
  | some _ => if a.wValue ≠ 0#16 then .next (ep0Stall s) else ep0Ack s

/-- Every other SETUP packet: STALL (rules R116, R149). -/
def execSetupDefault (_bm _rq : Byte) (_a : SetupArgs) (s : State) : Res := .next (ep0Stall s)

end Sys2Proof.Machine
end

