-- ==== Sys2Proof/Machine/Class.lean ====
section
/-! DEFINITION. Delegated control requests (40_usb_device_layer.md rules R153, R154) and the MSC driver's `ctrl_req`
(42_bot_sequencer.md rule R229, 41_usb_control_requests.md rules R200 to R205). -/

namespace Sys2Proof.Machine

/-- What the device layer does with a `ctrl_req` return (rules R153, R154). -/
def finishCtrlReq (r : Int) (s : State) : Res :=
  if r = 0 then ep0Ack s
  else if r = 1 then .next s
  else if r < 0 then .next (ep0Stall s)
  else .fault .ctrlReqReturnOutOfRange

/-- Delegation to the driver of the interface wIndex[7:0] (rule R153): STALL where there is none, or its `ctrl_req`
is null. -/
def delegate (a : SetupArgs) (ctrlReq : State → Res) (s : State) : Res :=
  match s.driver (ifaceNumber a.wIndex) with
  | none => .next (ep0Stall s)
  | some d => if d.ctrlReq then ctrlReq s else .next (ep0Stall s)

/-- GET_MAX_LUN: the driver answers N-1 and returns 1 (rules R203, R229). -/
def execGetMaxLun (a : SetupArgs) (s : State) : Res :=
  andThen (ep0Reply a.wLength [BitVec.ofNat 8 (s.nLun - 1)] s) (finishCtrlReq 1)

/-- BULK_ONLY_RESET: a session reset requested, return 0, so that the device layer acknowledges (rules R204, R229). -/
def execBulkOnlyReset (_a : SetupArgs) (s : State) : Res := finishCtrlReq 0 s.requestReset

/-- Every other delegated request: the MSC driver returns a negative value (rules R205, R229). -/
def execMscDefault (_bm _rq : Byte) (_a : SetupArgs) (s : State) : Res := finishCtrlReq (-1) s

/-- `msc_ctrl_req(s, 0, null)` (rules R111, R229): exact match on bmRequestType and bRequest. -/
def mscCtrlReq (bm rq : Byte) (a : SetupArgs) (s : State) : Res :=
  if bm = 0xA1#8 ∧ rq = 0xFE#8 then execGetMaxLun a s
  else if bm = 0x21#8 ∧ rq = 0xFF#8 then execBulkOnlyReset a s
  else execMscDefault bm rq a s

/-- A class request for an interface: delegated (rules R149, R200). -/
def execCtrlDelegateClass (dir : BitVec 1) (rq : Byte) (a : SetupArgs) (s : State) : Res :=
  delegate a (mscCtrlReq (dir ++ 0b01#2 ++ 0b00001#5) rq a) s

/-- A vendor request for an interface: delegated (rules R149, R200). -/
def execCtrlDelegateVendor (dir : BitVec 1) (rq : Byte) (a : SetupArgs) (s : State) : Res :=
  delegate a (mscCtrlReq (dir ++ 0b10#2 ++ 0b00001#5) rq a) s

/-- A reserved-type request for an interface: delegated (rules R149, R200, conflict C9). -/
def execCtrlDelegateReserved (dir : BitVec 1) (rq : Byte) (a : SetupArgs) (s : State) : Res :=
  delegate a (mscCtrlReq (dir ++ 0b11#2 ++ 0b00001#5) rq a) s

/-- The data stage of a delegated request: the MSC driver refuses every one (rules R156, R229). -/
def delegateData (a : SetupArgs) (s : State) : Res := delegate a (finishCtrlReq (-1)) s

end Sys2Proof.Machine
end

