-- ==== Sys2Proof/Machine/Dispatch.lean ====
section
/-! DEFINITION. The dispatch: one arm per instruction, each a call of its own meaning. -/

namespace Sys2Proof.Machine

/-- What an instruction does. -/
def exec (i : Instr) (s : State) : Host.Outcome State Fault Refusal :=
  match i with
  | .getStatus rcp a => Sys2Proof.Machine.execGetStatus rcp a s
  | .getDescriptor rcp a => Sys2Proof.Machine.execGetDescriptor rcp a s
  | .getConfiguration rcp a => Sys2Proof.Machine.execGetConfiguration rcp a s
  | .getInterface rcp a => Sys2Proof.Machine.execGetInterface rcp a s
  | .clearFeature rcp a => Sys2Proof.Machine.execClearFeature rcp a s
  | .setFeature rcp a => Sys2Proof.Machine.execSetFeature rcp a s
  | .setAddress rcp a => Sys2Proof.Machine.execSetAddress rcp a s
  | .setDescriptor rcp a => Sys2Proof.Machine.execSetDescriptor rcp a s
  | .setConfiguration rcp a => Sys2Proof.Machine.execSetConfiguration rcp a s
  | .setInterface rcp a => Sys2Proof.Machine.execSetInterface rcp a s
  | .ctrlDelegateClass dir rq a => Sys2Proof.Machine.execCtrlDelegateClass dir rq a s
  | .ctrlDelegateVendor dir rq a => Sys2Proof.Machine.execCtrlDelegateVendor dir rq a s
  | .ctrlDelegateReserved dir rq a => Sys2Proof.Machine.execCtrlDelegateReserved dir rq a s
  | .setupDefault bm rq a => Sys2Proof.Machine.execSetupDefault bm rq a s
  | .getMaxLun a => Sys2Proof.Machine.execGetMaxLun a s
  | .bulkOnlyReset a => Sys2Proof.Machine.execBulkOnlyReset a s
  | .mscDefault bm rq a => Sys2Proof.Machine.execMscDefault bm rq a s
  | .getDescriptorDevice rcp index wIndex wLength => Sys2Proof.Machine.execGetDescriptorDevice rcp index wIndex wLength s
  | .getDescriptorConfiguration rcp index wIndex wLength => Sys2Proof.Machine.execGetDescriptorConfiguration rcp index wIndex wLength s
  | .getDescriptorString rcp index wIndex wLength => Sys2Proof.Machine.execGetDescriptorString rcp index wIndex wLength s
  | .getDescriptorDeviceQualifier rcp index wIndex wLength => Sys2Proof.Machine.execGetDescriptorDeviceQualifier rcp index wIndex wLength s
  | .getDescriptorDefault rcp ty index wIndex wLength => Sys2Proof.Machine.execGetDescriptorDefault rcp ty index wIndex wLength s
  | .getStatusDevice a => Sys2Proof.Machine.execGetStatusDevice a s
  | .getStatusInterface a => Sys2Proof.Machine.execGetStatusInterface a s
  | .getStatusEndpoint a => Sys2Proof.Machine.execGetStatusEndpoint a s
  | .getStatusDefault rcp a => Sys2Proof.Machine.execGetStatusDefault rcp a s
  | .clearFeatureDevice a => Sys2Proof.Machine.execClearFeatureDevice a s
  | .clearFeatureEndpoint a => Sys2Proof.Machine.execClearFeatureEndpoint a s
  | .clearFeatureDefault rcp a => Sys2Proof.Machine.execClearFeatureDefault rcp a s
  | .setFeatureDevice a => Sys2Proof.Machine.execSetFeatureDevice a s
  | .setFeatureEndpoint a => Sys2Proof.Machine.execSetFeatureEndpoint a s
  | .setFeatureDefault rcp a => Sys2Proof.Machine.execSetFeatureDefault rcp a s
  | .cbw c => Sys2Proof.Machine.execCbw c s
  | .bulkOutDefault p => Sys2Proof.Machine.execBulkOutDefault p s
  | .testUnitReady => Sys2Proof.Machine.execTestUnitReady s
  | .requestSense => Sys2Proof.Machine.execRequestSense s
  | .inquiry reserved evpd page => Sys2Proof.Machine.execInquiry reserved evpd page s
  | .modeSense6 => Sys2Proof.Machine.execModeSense6 s
  | .startStopUnit => Sys2Proof.Machine.execStartStopUnit s
  | .preventAllowMediumRemoval => Sys2Proof.Machine.execPreventAllowMediumRemoval s
  | .readFormatCapacities => Sys2Proof.Machine.execReadFormatCapacities s
  | .readCapacity10 => Sys2Proof.Machine.execReadCapacity10 s
  | .read10 lba n => Sys2Proof.Machine.execRead10 lba n s
  | .write10 lba n => Sys2Proof.Machine.execWrite10 lba n s
  | .writeBuffer => Sys2Proof.Machine.execWriteBuffer s
  | .readBuffer => Sys2Proof.Machine.execReadBuffer s
  | .vendor cb => Sys2Proof.Machine.execVendor cb s
  | .cdbDefault op => Sys2Proof.Machine.execCdbDefault op s

end Sys2Proof.Machine
end

