-- ==== Sys2Proof/Machine/Events.lean ====
section
/-! DEFINITION. The events of rule R14 (00_scope.md), each enabled as rule R16 says and with the controller's first
effects before the block's own: the interrupt handler's events (40_usb_device_layer.md rules R147 to R161), the
main loop's Tick (rule R162, 42_bot_sequencer.md rules R231, R233, R250), and the application's and the medium's. An
event that is not enabled does not happen (log 2). -/

namespace Sys2Proof.Machine

/-! ## The controller's first effects -/

/-- A packet stored in a slot's receive buffer (rules R16, R66). -/
def storeRx (n : Fin 8) (p : List Byte) (s : State) : State :=
  match rxOffset n with
  | none => s
  | some off => { s with pma := Mem.write s.pma off p }

/-- The controller's first effect of `RxOut(n, p)` (rule R16 a). -/
def receiveOut (n : Fin 8) (p : List Byte) (s : State) : State :=
  (storeRx n p s).setHalf n .dOut
    { state := .nak, toggle := ! (s.half n .dOut).toggle, count := p.length }

/-- The controller's first effect of `TxDone(n)` (rule R16 b). -/
def sentIn (n : Fin 8) (s : State) : State :=
  s.setHalf n .dIn { s.half n .dIn with state := .nak, toggle := ! (s.half n .dIn).toggle }

/-- The controller's first effect of `RxSetup(p)` (rule R16 c). DESIGN CHOICE (log 34): both EP0 toggles stay, since
rule R16 c lists no flip and rule R29 says the block does not track them on EP0. -/
def receiveSetup (p : List Byte) (s : State) : State :=
  let s := storeRx 0 p s
  let s := s.setHalf 0 .dOut { s.half 0 .dOut with state := .nak, count := p.length }
  s.setHalf 0 .dIn { s.half 0 .dIn with state := .nak }

/-! ## Enabling conditions -/

/-- `RxSetup(p)` may occur (rules R14, R16 c, f). -/
def setupEnabled (p : List Byte) (s : State) : Bool :=
  s.usb.pullup && p.length == 8 && ((s.half 0 .dOut).state == .valid || (s.half 0 .dOut).state == .stall)

/-- `RxOut(n, p)` may occur (rules R14, R16 a, f). -/
def outEnabled (n : Fin 8) (p : List Byte) (s : State) : Bool :=
  s.usb.pullup && decide (p.length ≤ 64) && (s.half n .dOut).state == .valid

/-- `TxDone(n)` may occur (rule R16 b, f). -/
def doneEnabled (n : Fin 8) (s : State) : Bool := s.usb.pullup && (s.half n .dIn).state == .valid

/-- `MediumChange(l, m)` may occur (rule R47). -/
def mediumEnabled (l : Nat) (s : State) : Bool :=
  decide (l < s.nLun) && s.bot.phase == .awaitCbw && s.bot.rxFlag == false

/-! ## Setup packets -/

/-- `usb.setup <- decode_setup(p)` (rule R148). -/
def latchSetup (x : Setup) (s : State) : State := { s with usb := { s.usb with setup := x } }

/-- `RxSetup(p)` (rules R148, R149, R155): the packet is latched, decoded and executed, then EP0 RX is re-armed. -/
def onRxSetup (p : List Byte) (s : State) : Res :=
  if setupEnabled p s then
    match decodeSetup p with
    | none => .next s
    | some x =>
      andThen (exec (decodeFirst x) (latchSetup x (receiveSetup p s))) fun s => .next (rearmEp0 s)
  else .next s

/-! ## Data packets -/

/-- A slot's callback (rules R30, R226, R227). The EP0 engine is run by its events, not through the table. -/
def runCallback (c : Option EpCallback) (s : State) : State :=
  match c with
  | none => s
  | some .ep0Engine => s
  | some .mscRx => s.setRxFlag
  | some .mscTx => s.setTxFlag
  | some .mscRelease => s

/-- The latched request is one that was delegated (rule R156). -/
def delegatedRequest (x : Setup) : Bool :=
  x.bmRequestType &&& 0x60#8 != 0x00#8 && x.bmRequestType &&& 0x1F#8 == 0x01#8

/-- The EP0 engine on an OUT packet: a status stage is ignored, a data stage goes to the driver (rule R156). -/
def ep0Out (p : List Byte) (s : State) : Res :=
  if p.length = 0 then .next s
  else if delegatedRequest s.usb.setup then delegateData s.usb.setup.args s
  else .next s

/-- `RxOut(n, p)` (rules R155, R156, R159). DESIGN CHOICE (log 35): on a half with no entry in the static table, which
no configured slot has, it stops with the name rule R142 gives. -/
def onRxOut (n : Fin 8) (p : List Byte) (s : State) : Res :=
  if outEnabled n p s then
    if (rxOffset n).isNone then .fault .noStaticBufferForEndpoint
    else if n = 0 then andThen (ep0Out p (receiveOut 0 p s)) fun s => .next (rearmEp0 s)
    else .next (runCallback (s.ep n).cbRx (receiveOut n p s))
  else .next s

/-- The enumeration state after an address commit (rules R158, R164). -/
def enumAfterAddress (a : BitVec 7) (e : EnumState) : EnumState :=
  if e = .default ∧ a ≠ 0#7 then .address else if e = .address ∧ a = 0#7 then .default else e

/-- The address commit (rule R158). -/
def commitAddress (s : State) : State :=
  match s.usb.pendingAddress with
  | none => s
  | some a =>
    { s with usb := { s.usb with
        devAddress := a, pendingAddress := none, enumState := enumAfterAddress a s.usb.enumState } }

/-- `TxDone(n)` (rules R157, R158, R160). -/
def onTxDone (n : Fin 8) (s : State) : Res :=
  if doneEnabled n s then
    if n = 0 then .next (commitAddress (sentIn 0 s))
    else .next (runCallback (s.ep n).cbTx (sentIn n s))
  else .next s

/-! ## Bus reset -/

/-- A slot as a bus reset leaves it: both halves DISABLED, toggles 0 (rules R147, R392). -/
def resetSlot (e : Endpoint) : Endpoint :=
  { e with rx := { e.rx with state := .disabled, toggle := false },
           tx := { e.tx with state := .disabled, toggle := false } }

/-- Slots of the list reset. -/
def resetSlots : List (Fin 8) → State → State
  | [], s => s
  | n :: ns, s => resetSlots ns (s.setEp n (resetSlot (s.ep n)))

/-- A driver's `reset`, skipped where null (rules R145, R147, R230). -/
def resetDriver (d : Driver) (s : State) : Res := .next (if d.reset then s.requestReset else s)

/-- `BusReset` (rule R147). -/
def onBusReset (s : State) : Res :=
  if s.usb.pullup then
    let s := { s with usb := { s.usb with
      enumState := .default, devAddress := 0#7, pendingAddress := none, configValue := 0#8 } }
    andThen (configureEp0 (resetSlots [1, 2, 3, 4, 5, 6, 7] s)) fun s =>
      forDrivers resetDriver s.usb.ifdrv s
  else .next s

/-! ## The main loop -/

/-- What the bulk-OUT packet waiting in packet memory is, in the session's phase (rules R113, R233): a CBW only in
AWAIT_CBW, payload otherwise (log 27). -/
def fetchBulk (s : State) : Instr :=
  if s.bot.phase = .awaitCbw then decodeBulkOut (s.rxBuf 2) else .bulkOutDefault (s.rxBuf 2)

/-- `bot_on_rx()` (rules R233, R243 to R245). -/
def botOnRx (s : State) : Res := exec (fetchBulk s) s

/-- Serve one flag of `msc_periodic`. -/
def serve (flag : Bool) (clear : State → State) (action : State → Res) (s : State) : Res :=
  if flag then action (clear s) else .next s

/-- `msc_periodic()` (rule R231): rst, err, rx, tx in this order, each cleared before it is served. -/
def mscPeriodic (s : State) : Res :=
  andThen (serve s.bot.rstFlag State.clearRstFlag (fun s => .next (botRecover s)) s) fun s =>
    andThen (serve s.bot.errFlag State.clearErrFlag botOnErr s) fun s =>
      andThen (serve s.bot.rxFlag State.clearRxFlag botOnRx s) fun s =>
        serve s.bot.txFlag State.clearTxFlag botOnTx s

/-- A driver's `periodic`, skipped where null (rules R145, R162). -/
def periodicDriver (d : Driver) (s : State) : Res := if d.periodic then mscPeriodic s else .next s

/-- `Tick` (rule R162). -/
def onTick (s : State) : Res := forDrivers periodicDriver s.usb.ifdrv s

/-! ## Every event -/

/-- `MediumChange(l, m)` (rule R47). -/
def onMediumChange (l : Nat) (m : MediumState) (s : State) : State :=
  if mediumEnabled l s then
    { s with scsi := { s.scsi with lun := s.scsi.lun.modify l fun r => { r with state := m } } }
  else s

/-- One event (rules R14, R140). -/
def onEvent (e : Event) (s : State) : Res :=
  match e with
  | .rxSetup p => onRxSetup p s
  | .rxOut n p => onRxOut n p s
  | .txDone n => onTxDone n s
  | .busReset => onBusReset s
  | .busError => .next s
  | .overrun => .next s
  | .tick => onTick s
  | .registerInterface i d => registerInterface i d s
  | .start => start s
  | .mediumChange l m => .next (onMediumChange l m s)

/-- What happens while no event is queued: the application boots the block in the order of rule R395, the MSC driver
registered at index 0 and then `Start`; from then on the main loop turns (log 3). -/
def onIdle (s : State) : Res :=
  if s.usb.pullup then onTick s
  else
    match s.driver 0 with
    | none => registerInterface 0 Driver.msc s
    | some _ => start s

end Sys2Proof.Machine
end

