-- ==== Sys2Proof/Machine/Step.lean ====
section
/-! DEFINITION. One step: the oldest queued event is delivered (rules R14, R17), or, where none is queued, the core
goes on by itself (log 3). -/

namespace Sys2Proof.Machine

/-- One step of the block. -/
def step (s : State) : Host.Outcome State Fault Refusal :=
  match s.inputs with
  | [] => onIdle s
  | e :: es => onEvent e { s with inputs := es }

/-- A SETUP packet where the next step takes it: the oldest event, on a device that is started with EP0 accepting
(rule R16 c, f); with `msc`, the MSC driver registered at interface 0 (rule R115). -/
def State.placeSetup (s : State) (msc : Bool) (p : List Byte) : State :=
  let e0 := s.ep 0
  let s := if setupEnabled p { s with usb := { s.usb with pullup := true } } then s
    else s.setEp 0 { e0 with type := .control, rx := { e0.rx with state := .valid } }
  { s with
    inputs := .rxSetup p :: s.inputs,
    usb := { s.usb with
      pullup := true, ifdrv := if msc then s.usb.ifdrv.set 0 (some Driver.msc) else s.usb.ifdrv } }

/-- A bulk-OUT packet where the next step takes it: received in slot 2's buffer with `rx_flag` set, the session in
AWAIT_CBW with nothing else to serve, bulk-IN idle, and the next event a Tick of the MSC driver (rules R231, R233). -/
def State.placeBulk (s : State) (p : List Byte) : State :=
  let s := { s with
    pma := Mem.write s.pma 0x100 p, inputs := .tick :: s.inputs,
    usb := { s.usb with ifdrv := s.usb.ifdrv.set 0 (some Driver.msc) },
    bot := { s.bot with
      phase := .awaitCbw, resetPending := false, rxFlag := true, txFlag := false, errFlag := false,
      rstFlag := false } }
  let s := s.setHalf 1 .dIn { s.half 1 .dIn with state := .nak }
  s.setHalf 2 .dOut { s.half 2 .dOut with state := .nak, count := p.length }

/-- The CBW that carries a command block: tag, length, flags and LUN 0, all 16 bytes of the block significant. -/
def carrierCbw (cb : List Byte) : Cbw := ⟨cbwSignature, 0#32, 0#32, 0#8, 0#8, 16#8, cb⟩

/-- The state whose next step fetches and runs the instruction of a table word (log 19). -/
def State.withFetchWord (s : State) (nbits w : Nat) : State :=
  match tableUnit nbits w with
  | none => s
  | some (.cdb, cb) => s.placeBulk (encodeCbw (carrierCbw cb))
  | some (.bulkOut, p) => s.placeBulk p
  | some (.msc, p) => s.placeSetup true p
  | some (.setup, p) => s.placeSetup false p
  | some (.getDescriptor, p) => s.placeSetup false p
  | some (.getStatus, p) => s.placeSetup false p
  | some (.clearFeature, p) => s.placeSetup false p
  | some (.setFeature, p) => s.placeSetup false p

end Sys2Proof.Machine
end

