-- ==== Sys2Proof/Safety.lean ====
section
/-! DEFINITION. What counts as a safe run, in the terms the statements use: what a step leaves on an endpoint, the
invariants of rules R32, R37, R38, R40, R221 and R271 that every step keeps, and the faults that no run reaches
(93_implementation_defined.md section 2). -/

namespace Sys2Proof.Machine

/-! ## What a request leaves -/

/-- EP0's TX half is idle, as it is when a request's handler runs (rule R16 c), and its buffer is inside packet memory
(rule R8). -/
abbrev State.ep0Ready (s : State) : Prop := (s.half 0 .dIn).state = .nak ∧ 0xC0 ≤ s.cfg.pmaSize

/-- Bulk-IN is idle and its buffer is inside packet memory. -/
abbrev State.bulkInReady (s : State) : Prop := (s.half 1 .dIn).state = .nak ∧ 0x1C0 ≤ s.cfg.pmaSize

/-- `t` is `s` with `bytes` queued on slot `n`'s TX half (rules R65, R144): the host's next IN token receives `bytes`;
every byte of packet memory outside the half's 64-byte buffer reads as before, and nothing else of the state differs.
Which bytes of the buffer behind the packet are rewritten depends on the word size of rule R62 (log 10) and is stated
apart. -/
def Queued (n : Fin 8) (bytes : List Byte) (s t : State) : Prop :=
  t.txBuf n = bytes
    ∧ (∀ off, txOffset n = some off → ∀ a, ¬ (off ≤ a ∧ a < off + 64) → Mem.read t.pma a = Mem.read s.pma a)
    ∧ t = { s.setHalf n .dIn { s.half n .dIn with state := .valid, count := bytes.length } with pma := t.pma }

/-- `t` is `s` at the end of its transaction (rules R96, R247): `ctx` cleared, the 13 bytes of the CSW latch queued on
bulk-IN, phase AWAIT_CSW. -/
def CswQueued (s t : State) : Prop :=
  Queued 1 ([0x55#8, 0x53#8, 0x42#8, 0x53#8] ++ putLe32 s.bot.csw.tag ++ putLe32 s.bot.csw.residue ++ [s.bot.csw.status])
    { s with bot := { s.bot with phase := .awaitCsw }, scsi := { s.scsi with ctx := 0#32 } } t

/-- `t` is `s` with the next fragment of the chunk queued on bulk-IN (rule R242): at most 64 bytes, what is left of the
chunk, and what the host still expects. -/
def FragmentQueued (s t : State) : Prop :=
  Queued 1
    (Mem.readRange s.bot.dataBuf s.bot.dataOffset.toNat
      (min (min 64 (s.bot.dataLen - s.bot.dataOffset).toNat) s.bot.csw.residue.toNat))
    s t

/-- `s` with a bulk endpoint stalled and phase ERROR, nothing else changed (rule R246). -/
def State.bulkStalled (d : Dir) (s : State) : State :=
  let n : Fin 8 := match d with | .dIn => 1 | .dOut => 2
  { s.setHalf n d { s.half n d with state := .stall } with bot := { s.bot with phase := .error } }

/-- `s` with bulk-OUT armed if it was NAK, nothing else changed (rule R238). -/
def State.outArmed (s : State) : State :=
  s.setHalf 2 .dOut
    { s.half 2 .dOut with state := if (s.half 2 .dOut).state = .nak then .valid else (s.half 2 .dOut).state }

/-- `s` with EP0 stalled and nothing else changed (rule R351). -/
def State.ep0Stalled (s : State) : State := s.setHalf 0 .dIn { s.half 0 .dIn with state := .stall }

/-- `wIndex` names the existing half `d` of slot `n` (rules R67, R184). -/
abbrev NamesHalf (wIndex : Word16) (s : State) (n : Fin 8) (d : Dir) : Prop :=
  n.val = (wIndex.extractLsb' 0 4).toNat ∧ d = (if wIndex.getLsbD 7 then .dIn else .dOut)
    ∧ (s.half n d).state ≠ .disabled

/-! ## What a SCSI handler leaves -/

/-- `t` is `s` with a return code and `bytes` as the chunk for the sequencer (rules R282, R289); every byte of the data
buffer behind the chunk reads as before, and nothing else of the state differs. -/
def Replied (code : Int) (bytes : List Byte) (s t : State) : Prop :=
  t.bot.dataLen.toNat = bytes.length
    ∧ Mem.readRange t.bot.dataBuf 0 bytes.length = bytes
    ∧ (∀ a, bytes.length ≤ a → Mem.read t.bot.dataBuf a = Mem.read s.bot.dataBuf a)
    ∧ t = { s with bot := { s.bot with dataBuf := t.bot.dataBuf, dataLen := t.bot.dataLen },
                   scsi := { s.scsi with code := code } }

/-- `s` with the sense of a failed command and its return code, and nothing else changed (rules R284, R353). -/
def State.failed (s : State) (key : BitVec 4) (asc ascq : Byte) (code : Int) : State :=
  { s with scsi := { s.scsi with sense := ⟨0x70#8, key, asc, ascq, 0#32, 0#32, 10#8⟩, code := code } }

/-- `s` with only the return code of the command set. -/
def State.withCode (s : State) (code : Int) : State := { s with scsi := { s.scsi with code := code } }

/-! ## Invariants -/

/-- The parameters keep the constraints of rule R8 and rule R320. -/
structure ParamsInv (s : State) : Prop where
  valid    : s.cfg.valid = true
  drivers  : 1 ≤ s.usb.ifdrv.length
  luns     : 1 ≤ s.scsi.lun.length ∧ s.scsi.lun.length ≤ 16
  capacity : ∀ l ∈ s.scsi.lun, 1 ≤ l.capacityBlocks.toNat

/-- An address of one of the four assigned packet buffers (rule R64). -/
def Assigned (a : Nat) : Prop := (0x40 ≤ a ∧ a < 0xC0) ∨ (0x100 ≤ a ∧ a < 0x140) ∨ (0x180 ≤ a ∧ a < 0x1C0)

/-- Both memories are in canonical form, only assigned packet memory is ever written (rule R64), and the data buffer
has 512 bytes (rule R42). -/
structure MemoryInv (s : State) : Prop where
  pmaWf       : Mem.wf s.pma = true
  pmaAssigned : ∀ c ∈ s.pma, Assigned c.1
  bufWf       : Mem.wf s.bot.dataBuf = true
  bufSize     : ∀ c ∈ s.bot.dataBuf, c.1 < 512

/-- The endpoint invariants of rule R32, the callbacks each slot can be bound to (rules R141, R224, R225), EP0's RX
half armed between events (rule R155), and the device layer untouched before `Start` (rules R16 f, R391). -/
structure EndpointInv (s : State) : Prop where
  slot1     : (s.half 1 .dOut).state = .disabled
  slot2     : (s.half 2 .dIn).state = .disabled
  unused    : ∀ n : Fin 8, 3 ≤ n.val → ∀ d, (s.half n d).state = .disabled
  counts    : ∀ n d, (s.half n d).count ≤ 64
  boundRx   : ∀ n, (s.ep n).cbRx = none ∨ (n = 0 ∧ (s.ep n).cbRx = some .ep0Engine)
    ∨ (n = 2 ∧ (s.ep n).cbRx = some .mscRx)
  boundTx   : ∀ n, (s.ep n).cbTx = none ∨ (n = 0 ∧ (s.ep n).cbTx = some .ep0Engine)
    ∨ (n = 1 ∧ (s.ep n).cbTx = some .mscTx)
  boundRel  : ∀ n, (s.ep n).cbRelease = none ∨ ((n = 1 ∨ n = 2) ∧ (s.ep n).cbRelease = some .mscRelease)
  ep0       : s.usb.pullup = true →
    (s.ep 0).type = .control ∧ (s.half 0 .dOut).state = .valid ∧ (s.half 0 .dIn).state ≠ .disabled
  unstarted : s.usb.pullup = false →
    s.usb.enumState = .powered ∧ s.usb.devAddress = 0#7 ∧ s.usb.pendingAddress = none ∧ s.usb.configValue = 0#8

/-- The session's invariants: a reset is pending exactly in RECOVERY (rule R40); the CSW belongs to the CBW (rules
R37, R272) and its residue never exceeds H (rule R271); the offsets stay inside what they count (rules R38, R271);
bulk-IN holds the next fragment, or the CSW, in the phases that send, and is idle in the others (rules R221, R242);
`ctx` is 0 when a command can start (rule R288); the sense record has its fixed fields (rule R284). -/
structure SessionInv (s : State) : Prop where
  pending  : s.bot.phase = .recovery ↔ s.bot.resetPending = true
  recover  : s.bot.phase = .recovery ↔ s.bot.rstFlag = true
  block    : s.bot.cbw.cb.length = 16 ∧ s.bot.cbw.lun.toNat < s.scsi.lun.length
  tag      : s.bot.csw.tag = s.bot.cbw.tag
  status   : s.bot.csw.status.toNat ≤ 2
  residue  : s.bot.csw.residue.toNat ≤ s.bot.cbw.dtl.toNat
  chunk    : s.bot.dataLen.toNat ≤ 512
  dataOut  : s.bot.phase = .dataOut →
    (s.bot.dataLen = 0#32 ∧ s.bot.dataOffset.toNat < s.bot.cbw.dtl.toNat ∧ s.bot.csw.residue = s.bot.cbw.dtl)
      ∨ (s.bot.dataLen = 512#32 ∧ s.bot.dataOffset.toNat < 512)
  dataIn   : s.bot.phase = .dataIn →
    1 ≤ (s.half 1 .dIn).count ∧ (s.half 1 .dIn).count ≤ s.bot.csw.residue.toNat
      ∧ s.bot.dataOffset.toNat + (s.half 1 .dIn).count ≤ s.bot.dataLen.toNat
      ∧ s.txBuf 1 = Mem.readRange s.bot.dataBuf s.bot.dataOffset.toNat (s.half 1 .dIn).count
  awaitCsw : s.bot.phase = .awaitCsw → s.txBuf 1 = encodeCsw s.bot.csw
  idleIn   : s.bot.phase = .awaitCbw ∨ s.bot.phase = .dataOut ∨ s.bot.phase = .error →
    s.bot.txFlag = false ∧ (s.half 1 .dIn).state ≠ .valid
  oneIn    : (s.half 1 .dIn).state = .valid → s.bot.txFlag = false
  ctx      : s.bot.phase = .awaitCbw ∨ s.bot.phase = .awaitCsw → s.scsi.ctx = 0#32
  sense    : s.scsi.sense.responseCode = 0x70#8 ∧ s.scsi.sense.information = 0#32
    ∧ s.scsi.sense.commandSpecific = 0#32 ∧ s.scsi.sense.additionalLength = 10#8

/-- The invariant of the machine: it holds after power-on, and every step keeps it. -/
structure State.Inv (s : State) : Prop where
  params    : ParamsInv s
  memory    : MemoryInv s
  endpoints : EndpointInv s
  session   : SessionInv s

/-! ## Safe runs -/

/-- The faults that no step reaches from a state of the invariant: those 93_implementation_defined.md section 2 calls
unreachable but for `rxInWrongPhase` (log 31), and `packetMemoryOutOfRange` (log 20). -/
def Fault.unreachable : Fault → Bool
  | .noStaticBufferForEndpoint => true
  | .misalignedPmaWrite => true
  | .packetMemoryOutOfRange => true
  | .sendTooLong => true
  | .ctrlReqReturnOutOfRange => true
  | .txInWrongPhase => true
  | .sendHalfNotIdle => false
  | .interfaceIndexOutOfRange => false
  | .invalidCbw => false
  | .notMeaningfulCbw => false
  | .scsiReturnCodeOutOfRange => false
  | .outPacketOutOfBounds => false
  | .rxInWrongPhase => false
  | .lbaOutOfRange => false
  | .mediumAccessWhileNotPresent => false
  | .bufferCommandsNotSpecified => false
  | .vendorPayloadOutOfRange => false

end Sys2Proof.Machine
end

