-- ==== Sys2Proof/Certificates/Slice0/Obligations.lean ====
section
/-! DEFINITION. The statements for the provers, grouped as the files of spec/ are: encoding, stepping, the device layer,
the control requests, the SCSI commands, the BOT sequencer, the whole machine. Where a statement rests on a choice of
the model, its docstring names the log entry. -/

open Sys2Proof Sys2Proof.Machine

/-! ## Encoding (30_encoding.md) -/

/-- Decoding an encoded well-formed instruction, in its own format, gives it back, with every operand at every value
(rules R91 to R100, R106, R110 to R115). -/
def Obligations.DecodeInvertsEncode : Prop :=
  ∀ i : Instr, i.wf = true → decodeAs i.format (encode i) = .ok i

/-- What a decoder answers is a well-formed instruction of its format; every 8-byte SETUP packet has a meaning, and the
instruction's encoding is the packet: no bit of a SETUP packet is dropped (rules R91, R115). -/
def Obligations.DecodersAnswerTheirFormat : Prop :=
  (∀ f p i, decodeAs f p = .ok i → i.wf = true ∧ i.format = f)
    ∧ ∀ p : List Byte, p.length = 8 → ∃ i, decodeAs .setup p = .ok i ∧ encode i = p

/-- First-level decode of a SETUP packet by the key k = le16(p, 0), with the mask and match of each SETUP row of the
opcode table (rule R110). -/
def Obligations.SetupRowsByKey : Prop :=
  ∀ p : List Byte, p.length = 8 →
    let k := le16 p 0
    let rcp : BitVec 5 := (byteAt p 0).extractLsb' 0 5
    let dir : BitVec 1 := (byteAt p 0).extractLsb' 7 1
    let rq := byteAt p 1
    let a : SetupArgs := ⟨le16 p 2, le16 p 4, le16 p 6⟩
    decodeAs .setup p = .ok (
      if k &&& 0xFFE0#16 = 0x0080#16 then .getStatus rcp a
      else if k &&& 0xFFE0#16 = 0x0680#16 then .getDescriptor rcp a
      else if k &&& 0xFFE0#16 = 0x0880#16 then .getConfiguration rcp a
      else if k &&& 0xFFE0#16 = 0x0A80#16 then .getInterface rcp a
      else if k &&& 0xFFE0#16 = 0x0100#16 then .clearFeature rcp a
      else if k &&& 0xFFE0#16 = 0x0300#16 then .setFeature rcp a
      else if k &&& 0xFFE0#16 = 0x0500#16 then .setAddress rcp a
      else if k &&& 0xFFE0#16 = 0x0700#16 then .setDescriptor rcp a
      else if k &&& 0xFFE0#16 = 0x0900#16 then .setConfiguration rcp a
      else if k &&& 0xFFE0#16 = 0x0B00#16 then .setInterface rcp a
      else if k &&& 0x007F#16 = 0x0021#16 then .ctrlDelegateClass dir rq a
      else if k &&& 0x007F#16 = 0x0041#16 then .ctrlDelegateVendor dir rq a
      else if k &&& 0x007F#16 = 0x0061#16 then .ctrlDelegateReserved dir rq a
      else .setupDefault (byteAt p 0) rq a)

/-- Decode of a command block by its byte 0, with the mask and match of each CDB row of the opcode table, the operands
at the offsets of rules R98 to R100 (rule R114). -/
def Obligations.CdbRowsByByteZero : Prop :=
  ∀ cb : List Byte, cb.length = 16 →
    let op := byteAt cb 0
    let lba : Word32 := byteAt cb 2 ++ byteAt cb 3 ++ byteAt cb 4 ++ byteAt cb 5
    let n : Word16 := byteAt cb 7 ++ byteAt cb 8
    decodeAs .cdb cb = .ok (
      if op &&& 0xC0#8 = 0xC0#8 then .vendor cb
      else if op = 0x00#8 then .testUnitReady
      else if op = 0x03#8 then .requestSense
      else if op = 0x12#8 then .inquiry ((byteAt cb 1).extractLsb' 1 7) ((byteAt cb 1).extractLsb' 0 1) (byteAt cb 2)
      else if op = 0x1A#8 then .modeSense6
      else if op = 0x1B#8 then .startStopUnit
      else if op = 0x1E#8 then .preventAllowMediumRemoval
      else if op = 0x23#8 then .readFormatCapacities
      else if op = 0x25#8 then .readCapacity10
      else if op = 0x28#8 then .read10 lba n
      else if op = 0x2A#8 then .write10 lba n
      else if op = 0x3B#8 then .writeBuffer
      else if op = 0x3C#8 then .readBuffer
      else .cdbDefault op)

/-- A bulk-OUT packet is a CBW if and only if it has 31 bytes and begins with 55 53 42 43; its fields lie where rule R94
puts them, bits 7:4 of byte 13 ignored (rules R94, R113). -/
def Obligations.CbwFieldsFromPacket : Prop :=
  ∀ p : List Byte, p.length ≤ 64 →
    decodeAs .bulkOut p = .ok (
      if p.length = 31 ∧ p.take 4 = [0x55#8, 0x53#8, 0x42#8, 0x43#8] then
        .cbw {
          signature := 0x43425355#32
          tag := byteAt p 7 ++ byteAt p 6 ++ byteAt p 5 ++ byteAt p 4
          dtl := byteAt p 11 ++ byteAt p 10 ++ byteAt p 9 ++ byteAt p 8
          flags := byteAt p 12
          lun := 0#4 ++ (byteAt p 13).extractLsb' 0 4
          cbLength := byteAt p 14
          cb := (p.drop 15).take 16 }
      else .bulkOutDefault p)

/-- Words written out from the spec's encodings decode to what they stand for: SET_ADDRESS(42) of rule R190, GET_MAX_LUN
of rule R203, the Bulk-Only reset of rule R204, GET_STATUS of bulk-IN (rule R183), READ(10) of 0x1234 blocks at LBA
0x01020304 (rule R99). -/
def Obligations.SpecWordsDecode : Prop :=
  decodeAs .setup [0x00#8, 0x05#8, 0x2A#8, 0x00#8, 0x00#8, 0x00#8, 0x00#8, 0x00#8]
      = .ok (.setAddress 0#5 ⟨42#16, 0#16, 0#16⟩)
    ∧ decodeAs .msc [0xA1#8, 0xFE#8, 0x00#8, 0x00#8, 0x00#8, 0x00#8, 0x01#8, 0x00#8]
      = .ok (.getMaxLun ⟨0#16, 0#16, 1#16⟩)
    ∧ decodeAs .msc [0x21#8, 0xFF#8, 0x00#8, 0x00#8, 0x00#8, 0x00#8, 0x00#8, 0x00#8]
      = .ok (.bulkOnlyReset ⟨0#16, 0#16, 0#16⟩)
    ∧ decodeAs .getStatus [0x82#8, 0x00#8, 0x00#8, 0x00#8, 0x81#8, 0x00#8, 0x02#8, 0x00#8]
      = .ok (.getStatusEndpoint ⟨0#16, 0x0081#16, 2#16⟩)
    ∧ decodeAs .cdb ([0x28#8, 0x00#8, 0x01#8, 0x02#8, 0x03#8, 0x04#8, 0x00#8, 0x12#8, 0x34#8, 0x00#8]
        ++ List.replicate 6 0#8) = .ok (.read10 0x01020304#32 0x1234#16)

/-! ## Stepping -/

/-- A step whose oldest event is an enabled SETUP packet runs the decoded instruction: the controller stores the packet,
counts its 8 bytes and sets both EP0 halves NAK (rule R16 c), the packet is latched, its instruction runs, and EP0's RX
half is armed again (rules R148, R155). The queue of events is the model's (log 1), and that both EP0 toggles stay is its
choice (log 34). -/
def Obligations.StepRunsSetup : Prop :=
  ∀ (s : State) (p : List Byte) (es : List Event) (x : Setup) (i : Instr),
    s.inputs = .rxSetup p :: es → setupEnabled p s = true → decodeSetup p = some x → decodeAs .setup p = .ok i →
    ∃ r : State,
      step s = andThen (exec i r) (fun t => .next (t.setHalf 0 .dOut { t.half 0 .dOut with state := .valid }))
        ∧ r.usb.setup = x ∧ r.rxBuf 0 = p
        ∧ (∀ a, ¬ (0x40 ≤ a ∧ a < 0x48) → Mem.read r.pma a = Mem.read s.pma a)
        ∧ r = { (s.setHalf 0 .dOut { s.half 0 .dOut with state := .nak, count := 8 }).setHalf 0 .dIn
                  { s.half 0 .dIn with state := .nak } with
                usb := r.usb, pma := r.pma, inputs := es }
        ∧ r.usb = { s.usb with setup := x, ep := r.usb.ep }
        ∧ r.half 0 .dIn = { s.half 0 .dIn with state := .nak }
        ∧ r.half 0 .dOut = { s.half 0 .dOut with state := .nak, count := 8 }
        ∧ ∀ n, n ≠ 0 → r.ep n = s.ep n

/-- A Tick with `rx_flag` set and no reset or release to serve first runs the bulk-OUT packet that waits: in AWAIT_CBW
as what it decodes to, in every other phase as payload (rules R113, R231, R233; the phase test is log 27); a set
`tx_flag` is served after it. The MSC driver is the only one (rule R224). -/
def Obligations.StepRunsBulkPacket : Prop :=
  ∀ (s : State) (es : List Event) (k : Nat) (i : Instr),
    s.inputs = .tick :: es → s.usb.ifdrv = some Driver.msc :: List.replicate k none →
    s.bot.rstFlag = false → s.bot.errFlag = false → s.bot.rxFlag = true →
    (if s.bot.phase = .awaitCbw then decodeAs .bulkOut (s.rxBuf 2) = .ok i else i = .bulkOutDefault (s.rxBuf 2)) →
    step s = andThen (exec i { s with inputs := es, bot := { s.bot with rxFlag := false } }) (fun t =>
      if t.bot.txFlag = true then botOnTx { t with bot := { t.bot with txFlag := false } } else .next t)

/-- A SCSI call runs the instruction that the command block of the CBW latch decodes to, with its argument in the
model's latch `inLen`, and `more_data` follows the return code (rules R39, R81, R281, R288; log 17, 18). -/
def Obligations.ScsiCallRunsDecodedCdb : Prop :=
  ∀ (s : State) (n : Word32) (i : Instr),
    decodeAs .cdb s.bot.cbw.cb = .ok i →
    scsiCall n s = andThen (exec i { s with scsi := { s.scsi with inLen := n } }) (fun t =>
      .next { t with bot := { t.bot with moreData := decide (t.scsi.code = 2 ∨ t.scsi.code = 3) } })

/-- A first-level instruction does what the second-level instruction of the same packet does (rule R115); a delegated
request, where the interface of wIndex[7:0] has a driver with a `ctrl_req` (rule R153). -/
def Obligations.FirstLevelRunsSecondLevel : Prop :=
  ∀ (p : List Byte) (f : Format) (i j : Instr) (s : State),
    f ≠ .cdb → f ≠ .bulkOut → decodeAs .setup p = .ok i → decodeAs f p = .ok j →
    (f = .msc → ∃ d : Driver, s.usb.ifdrv[(byteAt p 4).toNat]? = some (some d) ∧ d.ctrlReq = true) →
    exec i s = exec j s

/-! ## The device layer (40_usb_device_layer.md) -/

/-- `send`: refused beyond 64 bytes or on a half that is not NAK, else the packet is queued (rules R65, R144). Slots 0
and 1 are those with a transmit buffer, which packet memory holds (rules R8, R64). -/
def Obligations.SendQueues : Prop :=
  ∀ (n : Fin 8) (bytes : List Byte) (s : State), (n = 0 ∨ n = 1) → 0x1C0 ≤ s.cfg.pmaSize →
    (64 < bytes.length → send n bytes s = .fault .sendTooLong)
      ∧ (bytes.length ≤ 64 → (s.half n .dIn).state ≠ .nak → send n bytes s = .fault .sendHalfNotIdle)
      ∧ (bytes.length ≤ 64 → (s.half n .dIn).state = .nak → ∃ t, send n bytes s = .next t ∧ Queued n bytes s t)

/-- `send` stores whole words of 4 bytes from the half's offset on, the bytes behind the packet zero, and every byte
outside those words reads as before (rules R62, R64; the word size is the spec's "from general knowledge", log 10). -/
def Obligations.SendStoresWholeWords : Prop :=
  ∀ (n : Fin 8) (bytes : List Byte) (s t : State), send n bytes s = .next t →
    ∃ off, (n = 0 ∧ off = 0x80 ∨ n = 1 ∧ off = 0x180)
      ∧ Mem.readRange t.pma off ((bytes.length + 3) / 4 * 4)
          = bytes ++ List.replicate ((bytes.length + 3) / 4 * 4 - bytes.length) 0#8
      ∧ ∀ a, ¬ (off ≤ a ∧ a < off + (bytes.length + 3) / 4 * 4) → Mem.read t.pma a = Mem.read s.pma a

/-- `start()` leaves the device layer as rule R141 says, whatever preceded it; `register_interface` installs the driver
or is refused beyond the table (rule R145). -/
def Obligations.StartAndRegister : Prop :=
  ∀ s : State,
    onEvent .start s = .next { s with usb := { s.usb with
        devAddress := 0#7, pendingAddress := none, configValue := 0#8, enumState := .powered, pullup := true,
        ep := s.usb.ep.set 0
          ⟨.control, ⟨.valid, false, 0⟩, ⟨.nak, false, 0⟩, some .ep0Engine, some .ep0Engine, none⟩ } }
      ∧ ∀ (i : Nat) (d : Driver),
        (i < s.usb.ifdrv.length →
          onEvent (.registerInterface i d) s
            = .next { s with usb := { s.usb with ifdrv := s.usb.ifdrv.set i (some d) } })
        ∧ (s.usb.ifdrv.length ≤ i → onEvent (.registerInterface i d) s = .fault .interfaceIndexOutOfRange)

/-- Bus reset: the state machine to DEFAULT, the address, the pending address and the configuration value cleared, EP0
configured, every other slot's halves DISABLED with toggles 0, and a session reset requested by each driver with a
`reset` (rules R147, R230). -/
def Obligations.BusReset : Prop :=
  ∀ s : State, s.usb.pullup = true →
    ∃ t, onEvent .busReset s = .next t
      ∧ t.ep 0 = ⟨.control, ⟨.valid, false, 0⟩, ⟨.nak, false, 0⟩, some .ep0Engine, some .ep0Engine, none⟩
      ∧ (∀ n, n ≠ 0 → t.ep n = { s.ep n with
            rx := { (s.ep n).rx with state := .disabled, toggle := false },
            tx := { (s.ep n).tx with state := .disabled, toggle := false } })
      ∧ t = { s with
          usb := { s.usb with
            enumState := .default, devAddress := 0#7, pendingAddress := none, configValue := 0#8, ep := t.usb.ep },
          bot :=
            if s.usb.ifdrv.any (fun o => o.any (fun d => d.reset)) then
              { s.bot with phase := .recovery, resetPending := true, rstFlag := true }
            else s.bot }

/-- A non-SETUP OUT packet on EP0: empty, it is a status stage and is ignored; otherwise it is refused if the latched
request was one that is delegated, and ignored if not; EP0's RX half is armed again (rules R155, R156). The controller's
first effects (storage, count, NAK, the toggle flipped) are rule R16 a, the spec's "from general knowledge" (log 4). -/
def Obligations.Ep0DataStage : Prop :=
  ∀ (p : List Byte) (s : State),
    s.usb.pullup = true → p.length ≤ 64 → (s.half 0 .dOut).state = .valid →
    ∃ t, onEvent (.rxOut 0 p) s = .next t
      ∧ t.rxBuf 0 = p
      ∧ (∀ a, ¬ (0x40 ≤ a ∧ a < 0x40 + p.length) → Mem.read t.pma a = Mem.read s.pma a)
      ∧ t = { (if p.length ≠ 0 ∧ s.usb.setup.bmRequestType &&& 0x60#8 ≠ 0x00#8
                  ∧ s.usb.setup.bmRequestType &&& 0x1F#8 = 0x01#8 then s.ep0Stalled else s).setHalf 0 .dOut
                ⟨.valid, ! (s.half 0 .dOut).toggle, p.length⟩ with
              pma := t.pma }

/-- The packet queued on EP0 was taken: the half is NAK with its toggle flipped (rule R16 b, the spec's "from general
knowledge", log 4), and a recorded address is committed with the transition of the enumeration state (rule R158). -/
def Obligations.AddressCommit : Prop :=
  ∀ s : State, s.usb.pullup = true → (s.half 0 .dIn).state = .valid →
    let e := s.setHalf 0 .dIn { s.half 0 .dIn with state := .nak, toggle := ! (s.half 0 .dIn).toggle }
    (s.usb.pendingAddress = none → onEvent (.txDone 0) s = .next e)
      ∧ ∀ a, s.usb.pendingAddress = some a →
        onEvent (.txDone 0) s = .next { e with usb := { e.usb with
          devAddress := a, pendingAddress := none,
          enumState :=
            if s.usb.enumState = .default ∧ a ≠ 0#7 then .address
            else if s.usb.enumState = .address ∧ a = 0#7 then .default
            else s.usb.enumState } }

/-- A packet on bulk-OUT is stored, its half goes NAK with the toggle flipped, and `rx_flag` is set; a packet taken on
bulk-IN leaves its half NAK with the toggle flipped and sets `tx_flag`; nothing else changes (rules R226, R227). The
controller's first effects are rule R16 a, b, the spec's "from general knowledge" (log 4). -/
def Obligations.BulkEventsSetFlags : Prop :=
  (∀ (p : List Byte) (s : State),
    s.usb.pullup = true → p.length ≤ 64 → (s.half 2 .dOut).state = .valid → (s.ep 2).cbRx = some .mscRx →
    ∃ t, onEvent (.rxOut 2 p) s = .next t
      ∧ t.rxBuf 2 = p
      ∧ (∀ a, ¬ (0x100 ≤ a ∧ a < 0x100 + p.length) → Mem.read t.pma a = Mem.read s.pma a)
      ∧ t = { s.setHalf 2 .dOut ⟨.nak, ! (s.half 2 .dOut).toggle, p.length⟩ with
              pma := t.pma, bot := { s.bot with rxFlag := true } })
    ∧ ∀ s : State,
      s.usb.pullup = true → (s.half 1 .dIn).state = .valid → (s.ep 1).cbTx = some .mscTx →
      onEvent (.txDone 1) s = .next
        { s.setHalf 1 .dIn { s.half 1 .dIn with state := .nak, toggle := ! (s.half 1 .dIn).toggle } with
          bot := { s.bot with txFlag := true } }

/-- `BusError` and `Overrun` change no state of the block (rule R161); `MediumChange` sets the LUN's state between
transactions and has no other effect (rule R47). That a MediumChange which is not enabled, within a transaction or for
a LUN that is not in the table, leaves the state alone is the model's choice (log 2, 33). -/
def Obligations.QuietEvents : Prop :=
  ∀ s : State,
    onEvent .busError s = .next s ∧ onEvent .overrun s = .next s
      ∧ (∀ (l : Nat) (m : MediumState) (r : Lun), s.scsi.lun[l]? = some r →
        onEvent (.mediumChange l m) s = .next
          (if s.bot.phase = .awaitCbw ∧ s.bot.rxFlag = false then
            { s with scsi := { s.scsi with lun := s.scsi.lun.set l { r with state := m } } }
          else s))
      ∧ ∀ (l : Nat) (m : MediumState), s.scsi.lun.length ≤ l → onEvent (.mediumChange l m) s = .next s

/-- The values of rule R52's table for power-on: the choices D53 and D39 of the spec, but for the address, which
`start()` gives. The values the model names where the table gives none are log 7, 8, 9 and not stated here. -/
def Obligations.PowerOnValues : Prop :=
  let s := State.reset
  s.usb.enumState = .powered ∧ s.usb.devAddress = 0#7 ∧ s.usb.pendingAddress = none ∧ s.usb.configValue = 0#8
    ∧ s.usb.pullup = false
    ∧ (∀ n : Fin 8, (s.ep n).rx = ⟨.disabled, false, 0⟩ ∧ (s.ep n).tx = ⟨.disabled, false, 0⟩
        ∧ (s.ep n).cbRx = none ∧ (s.ep n).cbTx = none ∧ (s.ep n).cbRelease = none)
    ∧ (∀ o ∈ s.usb.ifdrv, o = none)
    ∧ s.bot.phase = .awaitCbw ∧ s.bot.cbw = ⟨0#32, 0#32, 0#32, 0#8, 0#8, 0#8, List.replicate 16 0#8⟩
    ∧ s.bot.csw = ⟨0#32, 0#32, 0#8⟩ ∧ s.bot.dataOffset = 0#32 ∧ s.bot.dataLen = 0#32
    ∧ s.bot.moreData = false ∧ s.bot.resetPending = false
    ∧ s.bot.rxFlag = false ∧ s.bot.txFlag = false ∧ s.bot.errFlag = false ∧ s.bot.rstFlag = false
    ∧ s.scsi.ctx = 0#32 ∧ s.scsi.sense = ⟨0x70#8, 0#4, 0#8, 0#8, 0#32, 0#32, 10#8⟩

/-- While no event is queued, the block boots in the order of rule R395 (the MSC driver registered at index 0, then
`start()`), and from then on the main loop turns; that a step without an event does this is the model's choice
(log 3). -/
def Obligations.BootOrder : Prop :=
  ∀ s : State, s.inputs = [] →
    (s.usb.pullup = true → step s = onEvent .tick s)
      ∧ (s.usb.pullup = false → ∀ ds, s.usb.ifdrv = none :: ds →
          step s = .next { s with usb := { s.usb with ifdrv := some Driver.msc :: ds } })
      ∧ (s.usb.pullup = false → ∀ d ds, s.usb.ifdrv = some d :: ds → step s = onEvent .start s)

/-! ## The control requests (41_usb_control_requests.md)

A handler runs on a state whose EP0 TX half is NAK (`State.ep0Ready`); each statement says so of the second-level
instruction and of the first-level instruction of the same packet. -/

/-- GET_STATUS: 00 00 for a device or an interface; the halted bit of an existing half; STALL for an endpoint that does
not exist and for any other recipient (rules R181 to R184, R193; bit 0 for "halted" and the positions of the endpoint
address are the spec's "from general knowledge"). -/
def Obligations.GetStatus : Prop :=
  ∀ (a : SetupArgs) (s : State), s.ep0Ready →
    (∀ i, i = .getStatusDevice a ∨ i = .getStatusInterface a ∨ i = .getStatus 0#5 a ∨ i = .getStatus 1#5 a →
      ∃ t, exec i s = .next t ∧ Queued 0 ([0x00#8, 0x00#8].take a.wLength.toNat) s t)
    ∧ (∀ i, i = .getStatusEndpoint a ∨ i = .getStatus 2#5 a →
      (∀ n d, NamesHalf a.wIndex s n d →
        ∃ t, exec i s = .next t
          ∧ Queued 0 ([if (s.half n d).state = .stall then 0x01#8 else 0x00#8, 0x00#8].take a.wLength.toNat) s t)
      ∧ ((∀ n d, ¬ NamesHalf a.wIndex s n d) → exec i s = .next s.ep0Stalled))
    ∧ ∀ rcp : BitVec 5, 3 ≤ rcp.toNat → ∀ i, i = .getStatusDefault rcp a ∨ i = .getStatus rcp a →
      exec i s = .next s.ep0Stalled

/-- GET_DESCRIPTOR: the constant blocks of rules R101 to R105, truncated to wLength; STALL for a string from
`STR_COUNT` on and for any other type (rules R106, R191, R192). The layouts are the spec's "from general knowledge" and
its decision D19. -/
def Obligations.GetDescriptor : Prop :=
  ∀ (rcp : BitVec 5) (type index : Byte) (wIndex wLength : Word16) (s : State), s.ep0Ready → s.cfg.valid = true →
    let first : Instr := .getDescriptor rcp ⟨type ++ index, wIndex, wLength⟩
    let answers := fun (i : Instr) (bytes : List Byte) =>
      ∃ t, exec i s = .next t ∧ Queued 0 (bytes.take wLength.toNat) s t
    (∀ i, i = .getDescriptorDevice rcp index wIndex wLength ∨ (type = 0x01#8 ∧ i = first) →
      answers i [0x12#8, 0x01#8, 0x00#8, 0x02#8, 0x00#8, 0x00#8, 0x00#8, 0x40#8, 0x08#8, 0x36#8, 0x20#8, 0xC7#8,
        0x01#8, 0x01#8, 0x01#8, 0x02#8, 0x00#8, 0x01#8])
    ∧ (∀ i, i = .getDescriptorConfiguration rcp index wIndex wLength ∨ (type = 0x02#8 ∧ i = first) →
      answers i [0x09#8, 0x02#8, 0x20#8, 0x00#8, 0x01#8, s.cfg.bcfgValue, 0x00#8, 0x80#8, 0xFA#8,
        0x09#8, 0x04#8, 0x00#8, 0x00#8, 0x02#8, 0x08#8, 0x06#8, 0x50#8, 0x00#8,
        0x07#8, 0x05#8, 0x81#8, 0x02#8, 0x40#8, 0x00#8, 0x00#8, 0x07#8, 0x05#8, 0x02#8, 0x02#8, 0x40#8, 0x00#8, 0x00#8])
    ∧ (∀ i, i = .getDescriptorDeviceQualifier rcp index wIndex wLength ∨ (type = 0x06#8 ∧ i = first) →
      answers i [0x0A#8, 0x06#8, 0x00#8, 0x02#8, 0x00#8, 0x00#8, 0x00#8, 0x40#8, 0x00#8, 0x00#8])
    ∧ (∀ i, i = .getDescriptorString rcp index wIndex wLength ∨ (type = 0x03#8 ∧ i = first) →
      (index = 0#8 → answers i [0x04#8, 0x03#8, 0x09#8, 0x04#8])
      ∧ (∀ k text, index.toNat = k + 1 → s.cfg.strings[k]? = some text →
          answers i ([BitVec.ofNat 8 (2 + 2 * text.length), 0x03#8]
            ++ text.flatMap (fun c => [c.extractLsb' 0 8, c.extractLsb' 8 8])))
      ∧ (s.cfg.strings.length + 1 ≤ index.toNat → exec i s = .next s.ep0Stalled))
    ∧ (type ≠ 0x01#8 → type ≠ 0x02#8 → type ≠ 0x03#8 → type ≠ 0x06#8 →
      ∀ i, i = .getDescriptorDefault rcp type index wIndex wLength ∨ i = first → exec i s = .next s.ep0Stalled)

/-- GET_CONFIGURATION answers the configuration value; GET_INTERFACE answers 00 for an interface with a driver and
STALLs for any other (rules R195, R198). -/
def Obligations.GetConfigurationAndInterface : Prop :=
  ∀ (rcp : BitVec 5) (a : SetupArgs) (s : State), s.ep0Ready →
    (∃ t, exec (.getConfiguration rcp a) s = .next t
      ∧ Queued 0 ([s.usb.configValue].take a.wLength.toNat) s t)
    ∧ (∀ d : Driver, s.usb.ifdrv[(a.wIndex.extractLsb' 0 8).toNat]? = some (some d) →
      ∃ t, exec (.getInterface rcp a) s = .next t ∧ Queued 0 ([0x00#8].take a.wLength.toNat) s t)
    ∧ ((∀ d : Driver, s.usb.ifdrv[(a.wIndex.extractLsb' 0 8).toNat]? ≠ some (some d)) →
      exec (.getInterface rcp a) s = .next s.ep0Stalled)

/-- CLEAR_FEATURE: acknowledged without effect for the device; for an existing half and ENDPOINT_HALT the release
decision of rule R228 (or rule R186's default) sets VALID or NAK, `err_flag` and, leaving STALL, the toggle to 0;
STALL for another selector, a half that does not exist, another recipient (rules R143, R185 to R187, R228, R366). The
positions of the endpoint address in wIndex (R67) and selector 0 for ENDPOINT_HALT (R93) are the spec's "from general
knowledge" (log 24). -/
def Obligations.ClearFeature : Prop :=
  ∀ (a : SetupArgs) (s : State), s.ep0Ready →
    (∀ i, i = .clearFeatureDevice a ∨ i = .clearFeature 0#5 a → ∃ t, exec i s = .next t ∧ Queued 0 [] s t)
    ∧ (∀ i, i = .clearFeatureEndpoint a ∨ i = .clearFeature 2#5 a →
      (∀ n d, a.wValue = 0#16 → NamesHalf a.wIndex s n d →
        ∃ u t, exec i s = .next t ∧ Queued 0 [] u t
          ∧ u = { s.setHalf n d {
                    state :=
                      match (s.ep n).cbRelease with
                      | some _ => if s.bot.phase = .awaitCbw ∧ n = 2 then .valid else .nak
                      | none => if d = .dOut then .valid else .nak
                    toggle :=
                      if (s.half n d).state = .stall ∧ n ≠ 0 then false else (s.half n d).toggle
                    count := (s.half n d).count } with
                  bot :=
                    if (s.ep n).cbRelease = none ∨ (s.bot.phase = .awaitCbw ∧ n = 2) then s.bot
                    else { s.bot with errFlag := true } })
      ∧ (a.wValue ≠ 0#16 ∨ (∀ n d, ¬ NamesHalf a.wIndex s n d) → exec i s = .next s.ep0Stalled))
    ∧ ∀ rcp : BitVec 5, rcp ≠ 0#5 → rcp ≠ 2#5 → ∀ i, i = .clearFeatureDefault rcp a ∨ i = .clearFeature rcp a →
      exec i s = .next s.ep0Stalled

/-- SET_FEATURE: acknowledged without effect for the device; for an existing half and ENDPOINT_HALT the half is halted,
but for endpoint 0; STALL for another selector, a half that does not exist, another recipient (rules R188, R189). The
positions of the endpoint address in wIndex (R67) and selector 0 for ENDPOINT_HALT (R93) are the spec's "from general
knowledge" (log 24). -/
def Obligations.SetFeature : Prop :=
  ∀ (a : SetupArgs) (s : State), s.ep0Ready →
    (∀ i, i = .setFeatureDevice a ∨ i = .setFeature 0#5 a → ∃ t, exec i s = .next t ∧ Queued 0 [] s t)
    ∧ (∀ i, i = .setFeatureEndpoint a ∨ i = .setFeature 2#5 a →
      (∀ n d, a.wValue = 0#16 → NamesHalf a.wIndex s n d →
        ∃ t, exec i s = .next t
          ∧ Queued 0 [] (if n = 0 then s else s.setHalf n d { s.half n d with state := .stall }) t)
      ∧ (a.wValue ≠ 0#16 ∨ (∀ n d, ¬ NamesHalf a.wIndex s n d) → exec i s = .next s.ep0Stalled))
    ∧ ∀ rcp : BitVec 5, rcp ≠ 0#5 → rcp ≠ 2#5 → ∀ i, i = .setFeatureDefault rcp a ∨ i = .setFeature rcp a →
      exec i s = .next s.ep0Stalled

/-- SET_ADDRESS records wValue[6:0] and acknowledges; the address itself does not change yet (rule R190). -/
def Obligations.SetAddress : Prop :=
  ∀ (rcp : BitVec 5) (a : SetupArgs) (s : State), s.ep0Ready →
    ∃ t, exec (.setAddress rcp a) s = .next t
      ∧ Queued 0 [] { s with usb := { s.usb with pendingAddress := some (a.wValue.extractLsb' 0 7) } } t

/-- SET_DESCRIPTOR always STALLs (rule R194), as does every SETUP packet no other row matches (rule R149's "else"). -/
def Obligations.UnsupportedRequestsStall : Prop :=
  ∀ (rcp : BitVec 5) (bm rq : Byte) (a : SetupArgs) (s : State),
    exec (.setDescriptor rcp a) s = .next s.ep0Stalled ∧ exec (.setupDefault bm rq a) s = .next s.ep0Stalled

/-- SET_CONFIGURATION stores wValue[7:0], moves the enumeration state, has every driver with an `enable` configure the
two bulk slots (or take them down for 0) and request a session reset, and acknowledges (rules R196, R225). -/
def Obligations.SetConfiguration : Prop :=
  ∀ (rcp : BitVec 5) (a : SetupArgs) (s : State), s.ep0Ready →
    let cfg : Byte := a.wValue.extractLsb' 0 8
    let enabled : Bool := s.usb.ifdrv.any (fun o => o.any (fun d => d.enable))
    ∃ u t, exec (.setConfiguration rcp a) s = .next t ∧ Queued 0 [] u t
      ∧ u = { s with
          usb := { s.usb with
            configValue := cfg, ep := u.usb.ep,
            enumState :=
              if cfg ≠ 0#8 ∧ s.usb.enumState = .address then .configured
              else if cfg = 0#8 ∧ s.usb.enumState = .configured then .address
              else s.usb.enumState },
          bot := if enabled then { s.bot with phase := .recovery, resetPending := true, rstFlag := true } else s.bot }
      ∧ (∀ n, n ≠ 1 → n ≠ 2 → u.ep n = s.ep n)
      ∧ (enabled = false → u.ep 1 = s.ep 1 ∧ u.ep 2 = s.ep 2)
      ∧ (enabled = true → cfg ≠ 0#8 →
          u.ep 1 = ⟨.bulk, ⟨.disabled, false, 0⟩, ⟨.nak, false, 0⟩, none, some .mscTx, some .mscRelease⟩
            ∧ u.ep 2 = ⟨.bulk, ⟨.valid, false, 0⟩, ⟨.disabled, false, 0⟩, some .mscRx, none, some .mscRelease⟩)
      ∧ (enabled = true → cfg = 0#8 →
          u.ep 1 = { s.ep 1 with tx := { (s.ep 1).tx with state := .disabled } }
            ∧ u.ep 2 = { s.ep 2 with rx := { (s.ep 2).rx with state := .disabled } })

/-- SET_INTERFACE: alternate setting 0 of an interface with a driver is acknowledged without effect, anything else
STALLs (rule R199). -/
def Obligations.SetInterface : Prop :=
  ∀ (rcp : BitVec 5) (a : SetupArgs) (s : State), s.ep0Ready →
    (∀ d : Driver, s.usb.ifdrv[(a.wIndex.extractLsb' 0 8).toNat]? = some (some d) → a.wValue = 0#16 →
      ∃ t, exec (.setInterface rcp a) s = .next t ∧ Queued 0 [] s t)
    ∧ ((∀ d : Driver, s.usb.ifdrv[(a.wIndex.extractLsb' 0 8).toNat]? ≠ some (some d)) ∨ a.wValue ≠ 0#16 →
      exec (.setInterface rcp a) s = .next s.ep0Stalled)

/-- GET_MAX_LUN answers N - 1 (rule R203); BULK_ONLY_RESET requests a session reset and is acknowledged (rule R204);
both are served in every phase, and so by the delegating instruction where the interface has a driver. -/
def Obligations.ClassRequests : Prop :=
  ∀ (a : SetupArgs) (s : State), s.ep0Ready →
    let served : Prop :=
      ∃ d : Driver, s.usb.ifdrv[(a.wIndex.extractLsb' 0 8).toNat]? = some (some d) ∧ d.ctrlReq = true
    (∀ i, i = .getMaxLun a ∨ (i = .ctrlDelegateClass 1#1 0xFE#8 a ∧ served) →
      ∃ t, exec i s = .next t
        ∧ Queued 0 ([BitVec.ofNat 8 (s.scsi.lun.length - 1)].take a.wLength.toNat) s t)
    ∧ ∀ i, i = .bulkOnlyReset a ∨ (i = .ctrlDelegateClass 0#1 0xFF#8 a ∧ served) →
      ∃ t, exec i s = .next t
        ∧ Queued 0 [] { s with bot := { s.bot with phase := .recovery, resetPending := true, rstFlag := true } } t

/-- Every other delegated request STALLs: any vendor or reserved-type request, any other class request, and a class
request for an interface without a driver or whose driver has no `ctrl_req` (rules R153, R205). -/
def Obligations.DelegatedRequestsRefused : Prop :=
  ∀ (bm rq : Byte) (dir : BitVec 1) (a : SetupArgs) (s : State),
    exec (.mscDefault bm rq a) s = .next s.ep0Stalled
    ∧ exec (.ctrlDelegateVendor dir rq a) s = .next s.ep0Stalled
    ∧ exec (.ctrlDelegateReserved dir rq a) s = .next s.ep0Stalled
    ∧ ((¬ (dir = 1#1 ∧ rq = 0xFE#8) ∧ ¬ (dir = 0#1 ∧ rq = 0xFF#8))
        ∨ (∀ d : Driver, s.usb.ifdrv[(a.wIndex.extractLsb' 0 8).toNat]? = some (some d) → d.ctrlReq = false) →
      exec (.ctrlDelegateClass dir rq a) s = .next s.ep0Stalled)

/-! ## The SCSI commands (43_scsi_dispatch_cdb6.md, 44_scsi_cdb10_vendor.md)

The LUN is the one the CBW latch names (rule R290). -/

/-- TEST UNIT READY returns 0 on a READY LUN, else -3 with sense NOT READY / MEDIUM NOT PRESENT (rule R291). -/
def Obligations.TestUnitReady : Prop :=
  ∀ (s : State) (l : Lun), s.scsi.lun[s.bot.cbw.lun.toNat]? = some l →
    (l.state = .ready → exec .testUnitReady s = .next (s.withCode 0))
      ∧ (l.state ≠ .ready → exec .testUnitReady s = .next (s.failed 0x2#4 0x3A#8 0x00#8 (-3)))

/-- REQUEST SENSE delivers the 18 bytes of the sense record, then clears key, ASC and ASCQ and keeps the other fields
(rules R107, R292; the byte positions are the spec's "from general knowledge"). -/
def Obligations.RequestSense : Prop :=
  ∀ s : State,
    let x := s.scsi.sense
    ∃ t, exec .requestSense s = .next t
      ∧ Replied 1 ([x.responseCode, 0x00#8, 0#4 ++ x.key,
            x.information.extractLsb' 24 8, x.information.extractLsb' 16 8, x.information.extractLsb' 8 8,
            x.information.extractLsb' 0 8, x.additionalLength,
            x.commandSpecific.extractLsb' 24 8, x.commandSpecific.extractLsb' 16 8, x.commandSpecific.extractLsb' 8 8,
            x.commandSpecific.extractLsb' 0 8, x.asc, x.ascq, 0x00#8, 0x00#8, 0x00#8, 0x00#8])
          { s with scsi := { s.scsi with sense := { x with key := 0#4, asc := 0#8, ascq := 0#8 } } } t

/-- INQUIRY: the standard block, VPD pages 00, 80, 83, and INVALID FIELD IN CDB for a reserved bit, a page without EVPD,
or another page (rules R294, R297 to R299; the page layouts and the sense numbers are the spec's "from general
knowledge"). The parameters keep the constraints of rule R8. -/
def Obligations.Inquiry : Prop :=
  ∀ (reserved : BitVec 7) (evpd : BitVec 1) (page : Byte) (s : State), s.cfg.valid = true →
    let i : Instr := .inquiry reserved evpd page
    let answers := fun (bytes : List Byte) => ∃ t, exec i s = .next t ∧ Replied 1 bytes s t
    (reserved = 0#7 → evpd = 0#1 → page = 0x00#8 → answers s.cfg.inqStd)
    ∧ (reserved = 0#7 → evpd = 1#1 → page = 0x00#8 →
        answers [0x00#8, 0x00#8, 0x00#8, 0x03#8, 0x00#8, 0x80#8, 0x83#8])
    ∧ (reserved = 0#7 → evpd = 1#1 → page = 0x80#8 →
        answers ([0x00#8, 0x80#8, 0x00#8, BitVec.ofNat 8 s.cfg.vpdSerial.length] ++ s.cfg.vpdSerial))
    ∧ (reserved = 0#7 → evpd = 1#1 → page = 0x83#8 →
        answers ([0x00#8, 0x83#8, BitVec.ofNat 8 (s.cfg.vpdDevid.length / 256), BitVec.ofNat 8 s.cfg.vpdDevid.length]
          ++ s.cfg.vpdDevid))
    ∧ (reserved ≠ 0#7 ∨ (evpd = 0#1 ∧ page ≠ 0x00#8)
          ∨ (evpd = 1#1 ∧ page ≠ 0x00#8 ∧ page ≠ 0x80#8 ∧ page ≠ 0x83#8) →
        exec i s = .next (s.failed 0x5#4 0x24#8 0x00#8 (-1)))

/-- MODE SENSE(6), READ FORMAT CAPACITIES and READ CAPACITY answer from the LUN's record whatever its state (rules R302,
R320, R321, R323; the header layouts are the spec's "from general knowledge"). -/
def Obligations.LunDataAnswers : Prop :=
  ∀ (s : State) (l : Lun), s.cfg.valid = true → s.scsi.lun[s.bot.cbw.lun.toNat]? = some l →
    let c := l.capacityBlocks
    let h := c - 1#32
    (∃ t, exec .modeSense6 s = .next t
      ∧ Replied 1 ([BitVec.ofNat 8 (3 + s.cfg.modePages.length), 0x00#8, if l.writable then 0x00#8 else 0x80#8, 0x00#8]
          ++ s.cfg.modePages) s t)
    ∧ (∃ t, exec .readFormatCapacities s = .next t
      ∧ Replied 1 [0x00#8, 0x00#8, 0x00#8, 0x08#8, c.extractLsb' 24 8, c.extractLsb' 16 8, c.extractLsb' 8 8,
          c.extractLsb' 0 8, 0x02#8, 0x00#8, 0x02#8, 0x00#8] s t)
    ∧ ∃ t, exec .readCapacity10 s = .next t
      ∧ Replied 1 [h.extractLsb' 24 8, h.extractLsb' 16 8, h.extractLsb' 8 8, h.extractLsb' 0 8,
          0x00#8, 0x00#8, 0x02#8, 0x00#8] s t

/-- START STOP UNIT and PREVENT ALLOW MEDIUM REMOVAL return 0 and change no state (rules R304, R305). -/
def Obligations.AcknowledgedCommands : Prop :=
  ∀ s : State,
    exec .startStopUnit s = .next (s.withCode 0) ∧ exec .preventAllowMediumRemoval s = .next (s.withCode 0)

/-- READ(10): nothing for a zero length; on the first block the medium must be present and the range inside it (the
spec's two `unspecified`); block `lba + ctx` is read and delivered with code 2 until the last block, then 1, `ctx`
counting; a read error fails the command (rules R325, R326, R327). -/
def Obligations.Read10 : Prop :=
  ∀ (lba : Word32) (n : Word16) (s : State) (l : Lun), s.scsi.lun[s.bot.cbw.lun.toNat]? = some l →
    (n = 0#16 → exec (.read10 lba n) s = .next (s.withCode 0))
    ∧ (n ≠ 0#16 → s.scsi.ctx = 0#32 → l.state ≠ .ready →
        exec (.read10 lba n) s = .fault .mediumAccessWhileNotPresent)
    ∧ (n ≠ 0#16 → s.scsi.ctx = 0#32 → l.state = .ready → l.capacityBlocks.toNat < lba.toNat + n.toNat →
        exec (.read10 lba n) s = .fault .lbaOutOfRange)
    ∧ (n ≠ 0#16 →
        (s.scsi.ctx = 0#32 → l.state = .ready ∧ lba.toNat + n.toNat ≤ l.capacityBlocks.toNat) →
        let r := lunCall (.read s.bot.cbw.lun.toNat (lba + s.scsi.ctx)) s
        (r.1.ok = true →
          ∃ t, exec (.read10 lba n) s = .next t
            ∧ Replied (if s.scsi.ctx.toNat + 1 < n.toNat then 2 else 1) r.1.block.toList
                { r.2 with scsi := { r.2.scsi with ctx := s.scsi.ctx + 1#32 } } t)
        ∧ (r.1.ok = false → exec (.read10 lba n) s = .next (r.2.failed 0x3#4 0x01#8 0x00#8 (-1))))

/-- WRITE(10), first invocation (`in_len` = 0): write protection, then a zero length, then the two preconditions of the
medium, then the preload and the request for the first block. Later invocations: the 512 bytes of the data buffer are
written to block `lba + ctx`, `ctx` counts, the next block is requested, and after the last one the completion is
called; any failure of the medium fails the command (rules R325, R327, R328). -/
def Obligations.Write10 : Prop :=
  ∀ (lba : Word32) (n : Word16) (s : State) (l : Lun), s.scsi.lun[s.bot.cbw.lun.toNat]? = some l →
    let i : Instr := .write10 lba n
    let lun := s.bot.cbw.lun.toNat
    (s.scsi.inLen = 0#32 →
      (l.writable = false → exec i s = .next (s.failed 0x7#4 0x27#8 0x00#8 (-3)))
      ∧ (l.writable = true → n = 0#16 → exec i s = .next (s.withCode 0))
      ∧ (l.writable = true → n ≠ 0#16 → l.state ≠ .ready → exec i s = .fault .mediumAccessWhileNotPresent)
      ∧ (l.writable = true → n ≠ 0#16 → l.state = .ready → l.capacityBlocks.toNat < lba.toNat + n.toNat →
          exec i s = .fault .lbaOutOfRange)
      ∧ (l.writable = true → n ≠ 0#16 → l.state = .ready → lba.toNat + n.toNat ≤ l.capacityBlocks.toNat →
          let r := lunCall (.preload lun lba) s
          exec i s = .next (
            if r.1.ok then r.2.withCode (if 1 < n.toNat then 3 else 4) else r.2.failed 0x3#4 0x0C#8 0x00#8 (-1))))
    ∧ (s.scsi.inLen ≠ 0#32 →
      let r := lunCall (.write lun (lba + s.scsi.ctx) (Mem.readRange s.bot.dataBuf 0 512)) s
      let u : State := { r.2 with scsi := { r.2.scsi with ctx := s.scsi.ctx + 1#32 } }
      let e := lunCall (.complete lun) u
      exec i s = .next (
        if r.1.ok = false then r.2.failed 0x3#4 0x0C#8 0x00#8 (-1)
        else if s.scsi.ctx.toNat + 1 < n.toNat then
          u.withCode (if s.scsi.ctx.toNat + 2 < n.toNat then 3 else 4)
        else if e.1.ok = false then e.2.failed 0x3#4 0x0C#8 0x00#8 (-1)
        else e.2.withCode 0))

/-- One LUN call is recorded and takes the medium's next answer; where none is queued the answer is a free value, so
whatever holds here holds for every answer (rule R18; log 6, 26). -/
def Obligations.LunOracle : Prop :=
  ∀ (c : LunCall) (s : State),
    (∀ a as, s.medium.answers = a :: as →
      lunCall c s = (a, { s with medium := ⟨as, s.medium.freeCount, s.medium.calls ++ [c]⟩ }))
    ∧ (s.medium.answers = [] →
      lunCall c s = (Config.freeAnswer s.medium.freeCount,
        { s with medium := ⟨[], s.medium.freeCount + 1, s.medium.calls ++ [c]⟩ }))

/-- An unsupported operation code fails with INVALID COMMAND OPERATION CODE and -1, as do the buffer commands where they
are not implemented and a vendor command on a LUN without a callback; buffer commands that are implemented are the
spec's `unspecified` (rules R331, R333, R335; the sense numbers are the spec's "from general knowledge"). -/
def Obligations.UnsupportedCommands : Prop :=
  ∀ (s : State) (op : Byte) (cb : List Byte) (l : Lun), s.scsi.lun[s.bot.cbw.lun.toNat]? = some l →
    exec (.cdbDefault op) s = .next (s.failed 0x5#4 0x20#8 0x00#8 (-1))
    ∧ (l.cmdVendor = false → exec (.vendor cb) s = .next (s.failed 0x5#4 0x20#8 0x00#8 (-1)))
    ∧ ∀ i, i = .writeBuffer ∨ i = .readBuffer →
      (s.cfg.hasBufferCmds = false → exec i s = .next (s.failed 0x5#4 0x20#8 0x00#8 (-1)))
      ∧ (s.cfg.hasBufferCmds = true → exec i s = .fault .bufferCommandsNotSpecified)

/-- A vendor command with a registered callback: the callback's answer is the return code, its payload of 1 to 512 bytes
the chunk for codes 1 and 2; what it leaves in `ctx` and in the sense record is the model's reading of rule R334 d, e
(rule R333; log 29). -/
def Obligations.VendorCommand : Prop :=
  ∀ (cb : List Byte) (s : State) (l : Lun), s.scsi.lun[s.bot.cbw.lun.toNat]? = some l → l.cmdVendor = true →
    let r := lunCall (.vendor s.bot.cbw.lun.toNat cb s.scsi.inLen
      (Mem.readRange s.bot.dataBuf 0 s.scsi.inLen.toNat)) s
    let v := r.1.vendor
    let u : State := { r.2 with scsi := { r.2.scsi with
      ctx := v.ctx,
      sense :=
        match v.sense with
        | none => s.scsi.sense
        | some (key, asc, ascq) => ⟨0x70#8, key, asc, ascq, 0#32, 0#32, 10#8⟩ } }
    (v.code ≠ 1 ∧ v.code ≠ 2 → exec (.vendor cb) s = .next (u.withCode v.code))
    ∧ ((v.code = 1 ∨ v.code = 2) → 1 ≤ v.payload.length → v.payload.length ≤ 512 →
        ∃ t, exec (.vendor cb) s = .next t ∧ Replied v.code v.payload u t)
    ∧ ((v.code = 1 ∨ v.code = 2) → ¬ (1 ≤ v.payload.length ∧ v.payload.length ≤ 512) →
        exec (.vendor cb) s = .fault .vendorPayloadOutOfRange)

/-- What no SCSI command touches: the endpoints and the whole device layer, packet memory, the CBW and CSW latches, the
phase and the flags, the LUN table; of the data buffer only its 512 bytes can change, of the medium agent only its
record of calls grows (rules R18, R280). -/
def Obligations.ScsiCommandsNeverTouchEndpoints : Prop :=
  ∀ (i : Instr) (s t : State), i.format = .cdb → exec i s = .next t →
    t.usb = s.usb ∧ t.pma = s.pma ∧ t.inputs = s.inputs ∧ t.cfg = s.cfg
      ∧ t.bot = { s.bot with dataBuf := t.bot.dataBuf, dataLen := t.bot.dataLen }
      ∧ t.scsi = { s.scsi with ctx := t.scsi.ctx, sense := t.scsi.sense, code := t.scsi.code }
      ∧ (∀ a, 512 ≤ a → Mem.read t.bot.dataBuf a = Mem.read s.bot.dataBuf a)
      ∧ ∃ calls, t.medium.calls = s.medium.calls ++ calls

/-- After a failing command of the block (a vendor callback's contract is its own, rule R334) the key and the ASC are
not zero; after REQUEST SENSE key, ASC and ASCQ are zero; every other command that succeeds leaves the sense record as
it is (rules R284, R285). -/
def Obligations.SenseAfterCommands : Prop :=
  ∀ (i : Instr) (s t : State), i.format = .cdb → (∀ cb, i ≠ .vendor cb) → exec i s = .next t →
    (t.scsi.code < 0 → t.scsi.sense.key ≠ 0#4 ∧ t.scsi.sense.asc ≠ 0#8)
      ∧ (i = .requestSense → t.scsi.sense = { s.scsi.sense with key := 0#4, asc := 0#8, ascq := 0#8 })
      ∧ (i ≠ .requestSense → 0 ≤ t.scsi.code → t.scsi.sense = s.scsi.sense)

/-! ## The BOT sequencer (42_bot_sequencer.md) -/

/-- A meaningful CBW is latched, its command is run, and its outcome is placed by the host's direction and the return
code: the thirteen cases (rules R233, R234, R235, R247). `u` is what the command left. That `more_data` follows every
code is rules R39 and R50 (log 17), and that only -1 and -3 are a failed command, every other code outside the table a
stop, is rule R282 (log 36). -/
def Obligations.CbwThirteenCases : Prop :=
  ∀ (c : Cbw) (s u : State),
    1 ≤ c.cbLength.toNat → c.cbLength.toNat ≤ 16 → c.lun.toNat < s.scsi.lun.length →
    (∀ b ∈ c.cb.drop c.cbLength.toNat, b = 0#8) →
    scsiCall 0#32 { s with bot := { s.bot with
        cbw := c, csw := ⟨c.tag, c.dtl, 0#8⟩, dataOffset := 0#32, dataLen := 0#32, moreData := false } } = .next u →
    u.bulkInReady →
    let status := fun (v : Byte) => ({ u with bot := { u.bot with csw := { u.bot.csw with status := v } } } : State)
    let code := u.scsi.code
    u.bot.cbw = c ∧ u.bot.csw = ⟨c.tag, c.dtl, 0#8⟩ ∧ u.bot.moreData = decide (code = 2 ∨ code = 3)
    ∧ (code = 0 ∨ code = -1 ∨ code = -3 →
      let v := if code < 0 then status 1#8 else u
      (c.dtl = 0#32 → ∃ t, exec (.cbw c) s = .next t ∧ CswQueued v t)
      ∧ (c.dtl ≠ 0#32 → c.flags.getLsbD 7 = true → exec (.cbw c) s = .next (v.bulkStalled .dIn))
      ∧ (c.dtl ≠ 0#32 → c.flags.getLsbD 7 = false →
          exec (.cbw c) s = .next
            (State.outArmed { v with bot := { v.bot with dataLen := 0#32, dataOffset := 0#32, phase := .dataOut } })))
    ∧ (code = 1 ∨ code = 2 →
      (c.dtl = 0#32 → ∃ t, exec (.cbw c) s = .next t ∧ CswQueued (status 2#8) t)
      ∧ (c.dtl ≠ 0#32 → c.flags.getLsbD 7 = true →
          ∃ t, exec (.cbw c) s = .next t
            ∧ FragmentQueued { u with bot := { u.bot with dataOffset := 0#32, phase := .dataIn } } t)
      ∧ (c.dtl ≠ 0#32 → c.flags.getLsbD 7 = false →
          exec (.cbw c) s = .next ((status 2#8).bulkStalled .dOut)))
    ∧ (code = 3 ∨ code = 4 →
      (c.dtl = 0#32 → ∃ t, exec (.cbw c) s = .next t ∧ CswQueued (status 2#8) t)
      ∧ (c.dtl ≠ 0#32 → c.flags.getLsbD 7 = true →
          exec (.cbw c) s = .next ((status 2#8).bulkStalled .dIn))
      ∧ (c.dtl ≠ 0#32 → c.flags.getLsbD 7 = false →
          exec (.cbw c) s = .next
            (State.outArmed { u with bot := { u.bot with dataLen := 512#32, dataOffset := 0#32, phase := .dataOut } })))
    ∧ (code = -2 ∨ code < -3 ∨ 4 < code → exec (.cbw c) s = .fault .scsiReturnCodeOutOfRange)

/-- The CBW of a TEST UNIT READY completes in every state with bulk-IN idle: cases 1, 4 and 9, with status 0 on a READY
LUN and status 1 and the sense of rule R291 on another (rules R233, R234, R291). -/
def Obligations.CbwTestUnitReady : Prop :=
  ∀ (c : Cbw) (rest : List Byte) (l : Lun) (s : State),
    1 ≤ c.cbLength.toNat → c.cbLength.toNat ≤ 16 → s.scsi.lun[c.lun.toNat]? = some l →
    c.cb = 0x00#8 :: rest → (∀ b ∈ c.cb.drop c.cbLength.toNat, b = 0#8) → s.bulkInReady →
    let v : State := { s with
      bot := { s.bot with
        cbw := c, csw := ⟨c.tag, c.dtl, if l.state = .ready then 0#8 else 1#8⟩,
        dataOffset := 0#32, dataLen := 0#32, moreData := false },
      scsi := { s.scsi with
        inLen := 0#32, code := if l.state = .ready then 0 else -3,
        sense := if l.state = .ready then s.scsi.sense else ⟨0x70#8, 0x2#4, 0x3A#8, 0x00#8, 0#32, 0#32, 10#8⟩ } }
    (c.dtl = 0#32 → ∃ t, exec (.cbw c) s = .next t ∧ CswQueued v t)
    ∧ (c.dtl ≠ 0#32 → c.flags.getLsbD 7 = true → exec (.cbw c) s = .next (v.bulkStalled .dIn))
    ∧ (c.dtl ≠ 0#32 → c.flags.getLsbD 7 = false →
        exec (.cbw c) s = .next (State.outArmed { v with bot := { v.bot with phase := .dataOut } }))

/-- The packets the spec gives no meaning stop by name: a CBW that is not meaningful, a packet in AWAIT_CBW that is no
CBW, a packet served in a phase that takes none (rules R117, R233, R245; log 31). -/
def Obligations.PacketsRejected : Prop :=
  (∀ (c : Cbw) (s : State),
    (c.cbLength.toNat < 1 ∨ 16 < c.cbLength.toNat ∨ s.scsi.lun.length ≤ c.lun.toNat
      ∨ ∃ b ∈ c.cb.drop c.cbLength.toNat, b ≠ 0#8) →
    exec (.cbw c) s = .fault .notMeaningfulCbw)
  ∧ ∀ (p : List Byte) (s : State),
    (s.bot.phase = .awaitCbw → exec (.bulkOutDefault p) s = .fault .invalidCbw)
    ∧ (s.bot.phase ≠ .awaitCbw → s.bot.phase ≠ .dataOut → exec (.bulkOutDefault p) s = .fault .rxInWrongPhase)

/-- Discard mode: entered with both counts 0 and bulk-OUT armed; each packet only adds its length to `data_offset`,
until the host's length is reached and the CSW goes out with the residue untouched (rule R244). -/
def Obligations.DiscardedPackets : Prop :=
  (∀ s : State, enterDiscard s =
    State.outArmed { s with bot := { s.bot with dataLen := 0#32, dataOffset := 0#32, phase := .dataOut } })
  ∧ ∀ (p : List Byte) (s : State), s.bot.phase = .dataOut → s.bot.dataLen = 0#32 →
    let u : State := { s with bot := { s.bot with dataOffset := s.bot.dataOffset + BitVec.ofNat 32 p.length } }
    (p.length = 0 ∨ (s.bot.cbw.dtl - s.bot.dataOffset).toNat < p.length →
      exec (.bulkOutDefault p) s = .fault .outPacketOutOfBounds)
    ∧ (p.length ≠ 0 → p.length ≤ (s.bot.cbw.dtl - s.bot.dataOffset).toNat → u.bot.dataOffset = s.bot.cbw.dtl →
        s.bulkInReady → ∃ t, exec (.bulkOutDefault p) s = .next t ∧ CswQueued u t)
    ∧ (p.length ≠ 0 → p.length ≤ (s.bot.cbw.dtl - s.bot.dataOffset).toNat → u.bot.dataOffset ≠ s.bot.cbw.dtl →
        exec (.bulkOutDefault p) s = .next u.outArmed)

/-- A payload packet in DATA_OUT: stored at `data_offset`, counted in offset and residue; a whole chunk goes to the SCSI
layer, whose code decides (cases 11, 12, 13 and a write error); an incomplete chunk waits for more, or ends the
transaction where the host has no more to send (rule R243). Only -1 and -3 are a failed command, every other code is a
stop (rule R282; log 36). -/
def Obligations.PayloadPackets : Prop :=
  ∀ (p : List Byte) (s : State), s.bot.phase = .dataOut → s.bot.dataLen ≠ 0#32 →
    let off := s.bot.dataOffset.toNat
    let i : Instr := .bulkOutDefault p
    (p.length = 0 ∨ (s.bot.dataLen - s.bot.dataOffset).toNat < p.length ∨ s.bot.csw.residue.toNat < p.length →
      exec i s = .fault .outPacketOutOfBounds)
    ∧ (p.length ≠ 0 → p.length ≤ (s.bot.dataLen - s.bot.dataOffset).toNat → p.length ≤ s.bot.csw.residue.toNat →
      ∃ m : Mem, Mem.readRange m off p.length = p
        ∧ (∀ a, ¬ (off ≤ a ∧ a < off + p.length) → Mem.read m a = Mem.read s.bot.dataBuf a)
        ∧ let u : State := { s with bot := { s.bot with
            dataBuf := m, dataOffset := s.bot.dataOffset + BitVec.ofNat 32 p.length,
            csw := { s.bot.csw with residue := s.bot.csw.residue - BitVec.ofNat 32 p.length } } }
          let status := fun (v : Byte) (w : State) =>
            ({ w with bot := { w.bot with csw := { w.bot.csw with status := v } } } : State)
          (u.bot.dataOffset ≠ u.bot.dataLen → u.bot.csw.residue ≠ 0#32 → exec i s = .next u.outArmed)
          ∧ (u.bot.dataOffset ≠ u.bot.dataLen → u.bot.csw.residue = 0#32 → s.bulkInReady →
              ∃ t, exec i s = .next t ∧ CswQueued (status 2#8 u) t)
          ∧ (u.bot.dataOffset = u.bot.dataLen → ∀ v, scsiCall u.bot.dataLen u = .next v → v.bulkInReady →
              let code := v.scsi.code
              (code = 3 ∨ code = 4 →
                (v.bot.csw.residue = 0#32 → ∃ t, exec i s = .next t ∧ CswQueued (status 2#8 v) t)
                ∧ (v.bot.csw.residue ≠ 0#32 → v.bot.moreData = decide (code = 3)
                    ∧ exec i s = .next (State.outArmed { v with bot := { v.bot with dataOffset := 0#32 } })))
              ∧ (code = 0 →
                (v.bot.csw.residue = 0#32 → ∃ t, exec i s = .next t ∧ CswQueued v t)
                ∧ (v.bot.csw.residue ≠ 0#32 → exec i s = .next (v.bulkStalled .dOut)))
              ∧ (code = -1 ∨ code = -3 →
                (v.bot.csw.residue = 0#32 → ∃ t, exec i s = .next t ∧ CswQueued (status 1#8 v) t)
                ∧ (v.bot.csw.residue ≠ 0#32 → exec i s = .next ((status 1#8 v).bulkStalled .dOut)))
              ∧ (code = 1 ∨ code = 2 ∨ code = -2 ∨ code < -3 ∨ 4 < code → exec i s = .fault .scsiReturnCodeOutOfRange)))

/-- A fragment was taken in DATA_IN: its bytes count as moved; then the transaction ends (cases 6, 7), the next fragment
is queued, the next block is asked for, or bulk-IN is stalled (case 5, or a read error) (rules R240, R241, R242). Only
-1 and -3 are a read error, every other code is a stop (rule R282; log 36). -/
def Obligations.DataInContinues : Prop :=
  ∀ s : State, s.bot.phase = .dataIn → s.bulkInReady →
    let n := (s.half 1 .dIn).count
    let u : State := { s with bot := { s.bot with
      dataOffset := s.bot.dataOffset + BitVec.ofNat 32 n,
      csw := { s.bot.csw with residue := s.bot.csw.residue - BitVec.ofNat 32 n } } }
    let status := fun (v : Byte) (w : State) =>
      ({ w with bot := { w.bot with csw := { w.bot.csw with status := v } } } : State)
    let left : Prop := u.bot.dataOffset.toNat < u.bot.dataLen.toNat
    (u.bot.csw.residue = 0#32 → left ∨ u.bot.moreData = true →
      ∃ t, botOnTx s = .next t ∧ CswQueued (status 2#8 u) t)
    ∧ (u.bot.csw.residue = 0#32 → ¬ left → u.bot.moreData = false →
      ∃ t, botOnTx s = .next t ∧ CswQueued u t)
    ∧ (u.bot.csw.residue ≠ 0#32 → left → ∃ t, botOnTx s = .next t ∧ FragmentQueued u t)
    ∧ (u.bot.csw.residue ≠ 0#32 → ¬ left → u.bot.moreData = false → botOnTx s = .next (u.bulkStalled .dIn))
    ∧ (u.bot.csw.residue ≠ 0#32 → ¬ left → u.bot.moreData = true →
      ∀ v, scsiCall 0#32 u = .next v → v.bulkInReady →
        let code := v.scsi.code
        (code = 1 ∨ code = 2 → v.bot.moreData = decide (code = 2)
          ∧ ∃ t, botOnTx s = .next t ∧ FragmentQueued { v with bot := { v.bot with dataOffset := 0#32 } } t)
        ∧ (code = -1 ∨ code = -3 → botOnTx s = .next ((status 1#8 v).bulkStalled .dIn))
        ∧ (code = 0 ∨ code = -2 ∨ code < -3 ∨ 2 < code → botOnTx s = .fault .scsiReturnCodeOutOfRange))

/-- The host has taken the CSW: the session waits for the next CBW and bulk-OUT is armed (rule R248). `tx_flag` served in
any other phase but DATA_IN stops by name (rule R249, whose list leaves out RECOVERY; log 12). -/
def Obligations.CswTaken : Prop :=
  ∀ s : State,
    (s.bot.phase = .awaitCsw →
      botOnTx s = .next (State.outArmed { s with bot := { s.bot with phase := .awaitCbw } }))
    ∧ (s.bot.phase ≠ .awaitCsw → s.bot.phase ≠ .dataIn → botOnTx s = .fault .txInWrongPhase)

/-- Acting on a released halt: the deferred CSW where no bulk half is halted any more, the same CSW again where a Clear
Halt un-armed it, nothing otherwise (rule R232). -/
def Obligations.DeferredCsw : Prop :=
  ∀ s : State,
    (s.bot.phase = .error → (s.half 2 .dOut).state ≠ .stall → s.bulkInReady →
      ∃ t, botOnErr s = .next t ∧ CswQueued s t)
    ∧ (s.bot.phase = .awaitCsw → s.bot.txFlag = false → s.bulkInReady →
      ∃ t, botOnErr s = .next t
        ∧ Queued 1 ([0x55#8, 0x53#8, 0x42#8, 0x53#8] ++ putLe32 s.bot.csw.tag ++ putLe32 s.bot.csw.residue
            ++ [s.bot.csw.status]) s t)
    ∧ (¬ (s.bot.phase = .error ∧ (s.half 1 .dIn).state ≠ .stall ∧ (s.half 2 .dOut).state ≠ .stall) →
        ¬ (s.bot.phase = .awaitCsw ∧ s.bot.txFlag = false ∧ (s.half 1 .dIn).state = .nak) →
      botOnErr s = .next s)

/-- Reset recovery: flags, latches, counters, `ctx` and sense cleared, a queued packet on bulk-IN dropped, bulk-OUT
armed, phase AWAIT_CBW; a half that is STALL or DISABLED, every toggle, the data buffer and the LUNs stay (rules R250,
R287). -/
def Obligations.ResetRecovery : Prop :=
  ∀ s : State,
    botRecover s =
      { (s.setHalf 1 .dIn { s.half 1 .dIn with
            state := if (s.half 1 .dIn).state = .valid then .nak else (s.half 1 .dIn).state }).setHalf 2 .dOut
          { s.half 2 .dOut with
            state := if (s.half 2 .dOut).state = .nak then .valid else (s.half 2 .dOut).state } with
        bot := { s.bot with
          rxFlag := false, txFlag := false, errFlag := false,
          cbw := ⟨0#32, 0#32, 0#32, 0#8, 0#8, 0#8, List.replicate 16 0#8⟩, csw := ⟨0#32, 0#32, 0#8⟩,
          dataOffset := 0#32, dataLen := 0#32, moreData := false, resetPending := false, phase := .awaitCbw },
        scsi := { s.scsi with ctx := 0#32, sense := ⟨0x70#8, 0#4, 0#8, 0#8, 0#32, 0#32, 10#8⟩ } }

/-- The Tick of the MSC driver serves the flags in the order rst, err, rx, tx, each cleared before it is served; with
none set it does nothing, and a Tick that serves a reset serves nothing else (rule R231). -/
def Obligations.TickServesFlagsInOrder : Prop :=
  ∀ (s : State) (k : Nat), s.usb.ifdrv = some Driver.msc :: List.replicate k none →
    let tx := fun (t : State) =>
      if t.bot.txFlag = true then botOnTx { t with bot := { t.bot with txFlag := false } } else .next t
    let rx := fun (t : State) =>
      if t.bot.rxFlag = true then andThen (botOnRx { t with bot := { t.bot with rxFlag := false } }) tx else tx t
    (s.bot.rstFlag = true → onEvent .tick s = .next (botRecover { s with bot := { s.bot with rstFlag := false } }))
    ∧ (s.bot.rstFlag = false → s.bot.errFlag = true →
        onEvent .tick s = andThen (botOnErr { s with bot := { s.bot with errFlag := false } }) rx)
    ∧ (s.bot.rstFlag = false → s.bot.errFlag = false → onEvent .tick s = rx s)

/-- What a bulk-OUT packet's instruction leaves alone: every slot but 1 and 2, their unused halves, types, callbacks and
toggles of half 2, packet memory outside bulk-IN's buffer, the flags and `reset_pending`, the LUN table, the rest of
the device layer and the parameters (rules R233, R243, R244, R280). -/
def Obligations.BulkPacketsFrame : Prop :=
  ∀ (i : Instr) (s t : State), i.format = .bulkOut → exec i s = .next t →
    t.usb = { s.usb with ep := t.usb.ep } ∧ t.cfg = s.cfg ∧ t.inputs = s.inputs ∧ t.scsi.lun = s.scsi.lun
      ∧ (∀ n, n ≠ 1 → n ≠ 2 → t.ep n = s.ep n)
      ∧ t.ep 1 = { s.ep 1 with tx := (t.ep 1).tx } ∧ t.ep 2 = { s.ep 2 with rx := (t.ep 2).rx }
      ∧ (t.half 1 .dIn).toggle = (s.half 1 .dIn).toggle
      ∧ (t.half 2 .dOut).toggle = (s.half 2 .dOut).toggle ∧ (t.half 2 .dOut).count = (s.half 2 .dOut).count
      ∧ (∀ a, ¬ (0x180 ≤ a ∧ a < 0x1C0) → Mem.read t.pma a = Mem.read s.pma a)
      ∧ t.bot.rxFlag = s.bot.rxFlag ∧ t.bot.txFlag = s.bot.txFlag ∧ t.bot.errFlag = s.bot.errFlag
      ∧ t.bot.rstFlag = s.bot.rstFlag ∧ t.bot.resetPending = s.bot.resetPending
      ∧ ∃ calls, t.medium.calls = s.medium.calls ++ calls

/-! ## The whole machine -/

/-- The invariant holds after power-on. The reset values that the spec leaves to the model are log 7, 9, 13. -/
def Obligations.InvAtReset : Prop := State.reset.Inv

/-- Every step keeps the invariant: the memories stay canonical and inside their buffers (rules R42, R64), the endpoint
invariants of rule R32 hold, a reset is pending exactly in RECOVERY (rule R40), the CSW belongs to the CBW and its
residue stays within H (rules R37, R271, R272), bulk-IN holds exactly what its phase sends (rules R221, R242), and
`ctx` is 0 when a command can start (rule R288). -/
def Obligations.StepKeepsInv : Prop :=
  ∀ s t : State, s.Inv → step s = .next t → t.Inv

/-- No SETUP packet stops the block: from every state of the invariant an enabled SETUP is answered in the same step,
with a packet or a STALL on EP0's TX half and the RX half armed (rules R116, R148, R155). -/
def Obligations.EverySetupServed : Prop :=
  ∀ (s : State) (p : List Byte) (es : List Event), s.Inv → s.inputs = .rxSetup p :: es → setupEnabled p s = true →
    ∃ t, step s = .next t ∧ t.inputs = es
      ∧ ((t.half 0 .dIn).state = .valid ∨ (t.half 0 .dIn).state = .stall) ∧ (t.half 0 .dOut).state = .valid

/-- The faults the spec calls unreachable, but for the one of log 31, and the one of log 20, are reached from no state
of the invariant (rules R61, R73, R142, R144, R154, R249). -/
def Obligations.UnreachableFaults : Prop :=
  ∀ (s : State) (f : Fault), s.Inv → step s = .fault f → f.unreachable = false

/-- The device's address changes only when a recorded address is committed, on a bus reset, and at `start()` (rules
R141, R147, R158, R190). -/
def Obligations.WhoWritesTheAddress : Prop :=
  ∀ s t : State, step s = .next t → t.usb.devAddress ≠ s.usb.devAddress →
    (∃ es, s.inputs = .txDone 0 :: es ∧ s.usb.pendingAddress = some t.usb.devAddress)
      ∨ (t.usb.devAddress = 0#7 ∧ ∃ es, s.inputs = .busReset :: es)
      ∨ (t.usb.devAddress = 0#7 ∧ ∃ es, s.inputs = .start :: es)
      ∨ (t.usb.devAddress = 0#7 ∧ s.inputs = [] ∧ s.usb.pullup = false)

/-- No step writes the parameters, the sizes of the two tables, or anything of a LUN record but its state, and the state
only on a `MediumChange` (rules R8, R46, R47). -/
def Obligations.ConfigurationIsNeverWritten : Prop :=
  ∀ s t : State, step s = .next t →
    t.cfg = s.cfg ∧ t.usb.ifdrv.length = s.usb.ifdrv.length
      ∧ t.scsi.lun.map (fun l => { l with state := .ready }) = s.scsi.lun.map (fun l => { l with state := .ready })
      ∧ (t.scsi.lun ≠ s.scsi.lun → ∃ l m es, s.inputs = .mediumChange l m :: es)
end

