-- ==== Sys2Proof/Laws/Decode.lean ====
section
/-! SUPPORT. Byte order is lossless, each decoder answers in its own format, and `exec` goes through a decoder's
tests. -/

namespace Sys2Proof

/-! ## Byte order -/

/-- Two adjacent fields of a word are the field they make up. -/
theorem append_extract {w : Nat} (v : BitVec w) (lo m n : Nat) :
    v.extractLsb' (lo + n) m ++ v.extractLsb' lo n = v.extractLsb' lo (m + n) := by
  apply BitVec.eq_of_getLsbD_eq
  intro i hi
  simp only [BitVec.getLsbD_append, BitVec.getLsbD_extractLsb']
  split
  · simp [hi]; omega
  · have h1 : i - n < m := by omega
    have h2 : lo + n + (i - n) = lo + i := by omega
    simp [hi, h1, h2]

/-- The two bytes of a 16-bit word are the word. -/
@[simp] theorem bytes_word16 (v : Word16) : v.extractLsb' 8 8 ++ v.extractLsb' 0 8 = v := by
  simpa using append_extract v 0 8 8

/-- The four bytes of a 32-bit word are the word. -/
@[simp] theorem bytes_word32 (v : Word32) :
    v.extractLsb' 24 8 ++ v.extractLsb' 16 8 ++ v.extractLsb' 8 8 ++ v.extractLsb' 0 8 = v := by
  rw [show v.extractLsb' 24 8 ++ v.extractLsb' 16 8 = v.extractLsb' 16 16 from append_extract v 16 8 8,
    show v.extractLsb' 16 16 ++ v.extractLsb' 8 8 = v.extractLsb' 8 24 from append_extract v 8 16 8,
    show v.extractLsb' 8 24 ++ v.extractLsb' 0 8 = v.extractLsb' 0 32 from append_extract v 0 24 8]
  simp

/-- bmRequestType is its upper three and its lower five bits (rule R92). -/
@[simp] theorem bits_requestType (bm : Byte) : topBits bm ++ rcpBits bm = bm := by
  simpa [topBits, rcpBits] using append_extract bm 0 3 5

/-- The upper part of two joined fields. -/
theorem extract_append_high {m n : Nat} (x : BitVec m) (y : BitVec n) : (x ++ y).extractLsb' n m = x := by
  apply BitVec.eq_of_getLsbD_eq
  intro i hi
  simp [BitVec.getLsbD_append, hi]

/-- The lower part of two joined fields. -/
theorem extract_append_low {m n : Nat} (x : BitVec m) (y : BitVec n) : (x ++ y).extractLsb' 0 n = y := by
  apply BitVec.eq_of_getLsbD_eq
  intro i hi
  simp [BitVec.getLsbD_append, hi]

/-- The upper byte of two joined bytes. -/
@[simp] theorem high_byte (x y : Byte) : (x ++ y).extractLsb' 8 8 = x := extract_append_high x y

/-- The lower byte of two joined bytes. -/
@[simp] theorem low_byte (x y : Byte) : (x ++ y).extractLsb' 0 8 = y := extract_append_low x y

/-- The reserved bits of INQUIRY's byte 1 (rule R98). -/
@[simp] theorem inquiry_reserved (x : BitVec 7) (y : BitVec 1) : (x ++ y).extractLsb' 1 7 = x :=
  extract_append_high x y

/-- The EVPD bit of INQUIRY's byte 1 (rule R98). -/
@[simp] theorem inquiry_evpd (x : BitVec 7) (y : BitVec 1) : (x ++ y).extractLsb' 0 1 = y := extract_append_low x y

/-- The upper bits of a built bmRequestType. -/
@[simp] theorem topBits_append (x : BitVec 3) (y : BitVec 5) : topBits (x ++ y) = x := extract_append_high x y

/-- The recipient of a built bmRequestType. -/
@[simp] theorem rcpBits_append (x : BitVec 3) (y : BitVec 5) : rcpBits (x ++ y) = y := extract_append_low x y

/-! ## Setup packets -/

/-- What a built setup packet decodes to. -/
@[simp] theorem decodeSetup_encodeSetup (bm rq : Byte) (a : SetupArgs) :
    decodeSetup (encodeSetup bm rq a) = some ⟨bm, rq, a.wValue, a.wIndex, a.wLength⟩ := by
  simp [decodeSetup, encodeSetup, putLe16, le16, byteAt]

/-- A packet of another length is no SETUP. -/
theorem decodeSetup_eq_none (p : List Byte) : decodeSetup p = none ↔ p.length ≠ 8 := by
  unfold decodeSetup; split <;> simp_all

/-- A chain of tests keeps the format its answers share. -/
theorem Instr.format_ite (c : Prop) [Decidable c] (i j : Instr) :
    (if c then i else j).format = if c then i.format else j.format := by
  split <;> rfl

/-- First-level decode answers in format SETUP. -/
theorem decodeFirst_format (s : Setup) : (decodeFirst s).format = .setup := by
  unfold decodeFirst; simp only [Instr.format_ite]; simp only [Instr.format, ite_self]

/-- A command block's decode answers in format CDB. -/
theorem decodeCdb_format (cb : List Byte) : (decodeCdb cb).format = .cdb := by
  unfold decodeCdb; simp only [Instr.format_ite]; simp only [Instr.format, ite_self]

end Sys2Proof

namespace Sys2Proof.Machine

/-- `exec` goes through a test. -/
theorem exec_ite (c : Prop) [Decidable c] (i j : Instr) (s : State) :
    exec (if c then i else j) s = if c then exec i s else exec j s := by
  split <;> rfl

/-- The dispatcher of rule R281 is decode, then `exec`. -/
theorem scsiRoute_eq (cb : List Byte) (s : State) : scsiRoute cb s = exec (decodeCdb cb) s := by
  unfold scsiRoute decodeCdb
  simp only [exec_ite]
  rfl

end Sys2Proof.Machine
end

