-- ==== Sys2Proof/Laws/Memory.lean ====
section
/-! SUPPORT. The laws of a memory: what reading after writing gives, and that writing keeps the canonical form. -/

namespace Sys2Proof.Machine

/-! ## Reading -/

theorem Mem.read_nil (a : Nat) : Mem.read [] a = 0#8 := rfl

theorem Mem.read_cons (c : Host.Cell) (m : Mem) (a : Nat) :
    Mem.read (c :: m) a = if c.1 = a then c.2 else Mem.read m a := by
  cases c; rfl

/-- An address no cell has reads as 00. -/
theorem Mem.read_absent (m : Mem) (a : Nat) (h : ∀ c ∈ m, c.1 ≠ a) : Mem.read m a = 0#8 := by
  induction m with
  | nil => rfl
  | cons c m ih =>
    rw [Mem.read_cons, if_neg (h c (by simp))]
    exact ih fun d hd => h d (by simp [hd])

/-- Cells of other addresses in front are not seen. -/
theorem Mem.read_append_right (m n : Mem) (a : Nat) (h : ∀ c ∈ m, c.1 ≠ a) :
    Mem.read (m ++ n) a = Mem.read n a := by
  induction m with
  | nil => rfl
  | cons c m ih =>
    rw [List.cons_append, Mem.read_cons, if_neg (h c (by simp))]
    exact ih fun d hd => h d (by simp [hd])

/-- Cells of other addresses behind are not seen. -/
theorem Mem.read_append_left (m n : Mem) (a : Nat) (h : ∀ c ∈ n, c.1 ≠ a) :
    Mem.read (m ++ n) a = Mem.read m a := by
  induction m with
  | nil => simpa [Mem.read_nil] using Mem.read_absent n a h
  | cons c m ih => rw [List.cons_append, Mem.read_cons, Mem.read_cons, ih]

/-- A filter that keeps an address is not seen at it. -/
theorem Mem.read_filter (m : Mem) (p : Host.Cell → Bool) (a : Nat) (h : ∀ b, p (a, b) = true) :
    Mem.read (m.filter p) a = Mem.read m a := by
  induction m with
  | nil => rfl
  | cons c m ih =>
    obtain ⟨k, b⟩ := c
    by_cases hk : k = a
    · subst hk; simp [h, Mem.read_cons]
    · by_cases hp : p (k, b) = true
      · simp [hp, Mem.read_cons, hk, ih]
      · simp [hp, Mem.read_cons, hk, ih]

theorem Mem.cells_range (off : Nat) (bs : List Byte) (c : Host.Cell) (hc : c ∈ Mem.cells off bs) :
    off ≤ c.1 ∧ c.1 < off + bs.length ∧ c.2 ≠ 0#8 := by
  induction bs generalizing off with
  | nil => simp [Mem.cells] at hc
  | cons b bs ih =>
    simp only [Mem.cells] at hc
    split at hc
    · have := ih _ hc
      exact ⟨by omega, by simp; omega, this.2.2⟩
    · rcases List.mem_cons.1 hc with rfl | hc
      · exact ⟨le_refl _, by simp, by assumption⟩
      · have := ih _ hc
        exact ⟨by omega, by simp; omega, this.2.2⟩

theorem Mem.read_cells (off : Nat) (bs : List Byte) (a : Nat) :
    Mem.read (Mem.cells off bs) a = if off ≤ a then bs.getD (a - off) 0#8 else 0#8 := by
  induction bs generalizing off with
  | nil => simp [Mem.cells, Mem.read_nil]
  | cons b bs ih =>
    have key : Mem.read (Mem.cells off (b :: bs)) a =
        if off = a then b else Mem.read (Mem.cells (off + 1) bs) a := by
      simp only [Mem.cells]
      split
      · rename_i hb
        split
        · subst_vars
          exact Mem.read_absent _ _ fun c hc => by have := Mem.cells_range _ _ c hc; omega
        · rfl
      · rw [Mem.read_cons]
    rw [key, ih]
    by_cases h : off = a
    · subst h; simp
    · by_cases h1 : off ≤ a
      · obtain ⟨k, rfl⟩ : ∃ k, a = off + 1 + k := ⟨a - (off + 1), by omega⟩
        have e : off + 1 + k - off = k + 1 := by omega
        simp [h, h1, e]
      · simp [h, h1]; omega

/-! ## Reading after writing -/

/-- What every byte reads as after a write. -/
theorem Mem.read_write (m : Mem) (off : Nat) (bs : List Byte) (a : Nat) :
    Mem.read (Mem.write m off bs) a =
      if off ≤ a ∧ a < off + bs.length then bs.getD (a - off) 0#8 else Mem.read m a := by
  unfold Mem.write
  split
  · rename_i h
    rw [Mem.read_append_left, Mem.read_append_right, Mem.read_cells, if_pos h.1]
    · intro c hc; simp at hc; omega
    · intro c hc; simp at hc; omega
  · rename_i h
    by_cases ha : a < off
    · rw [Mem.read_append_left, Mem.read_append_left, Mem.read_filter]
      · simpa using ha
      · intro c hc; have := Mem.cells_range _ _ c hc; omega
      · intro c hc; simp at hc; omega
    · rw [List.append_assoc, Mem.read_append_right, Mem.read_append_right, Mem.read_filter]
      · intro b; simp; omega
      · intro c hc; have := Mem.cells_range _ _ c hc; omega
      · intro c hc; simp at hc; omega

/-- A write leaves every other address alone. -/
theorem Mem.read_write_other (m : Mem) (off : Nat) (bs : List Byte) (a : Nat)
    (h : ¬ (off ≤ a ∧ a < off + bs.length)) : Mem.read (Mem.write m off bs) a = Mem.read m a := by
  rw [Mem.read_write, if_neg h]

/-- A write gives the bytes written. -/
theorem Mem.read_write_same (m : Mem) (off : Nat) (bs : List Byte) (i : Nat) (h : i < bs.length) :
    Mem.read (Mem.write m off bs) (off + i) = bs.getD i 0#8 := by
  rw [Mem.read_write, if_pos ⟨by omega, by omega⟩, Nat.add_sub_cancel_left]

@[simp] theorem Mem.readRange_length (m : Mem) (off n : Nat) : (Mem.readRange m off n).length = n := by
  induction n generalizing off with
  | zero => rfl
  | succ n ih => simp [Mem.readRange, ih]

theorem Mem.readRange_getElem (m : Mem) (off n i : Nat) (h : i < (Mem.readRange m off n).length) :
    (Mem.readRange m off n)[i] = Mem.read m (off + i) := by
  induction n generalizing off i with
  | zero => simp at h
  | succ n ih =>
    cases i with
    | zero => rfl
    | succ i =>
      simp only [Mem.readRange, List.getElem_cons_succ]
      rw [ih]; congr 1; omega

/-- A range reads as the bytes that were written there, whatever was written behind them. -/
theorem Mem.readRange_write_prefix (m : Mem) (off : Nat) (bs more : List Byte) :
    Mem.readRange (Mem.write m off (bs ++ more)) off bs.length = bs := by
  apply List.ext_getElem
  · simp
  · intro i h1 h2
    rw [Mem.readRange_getElem, Mem.read_write_same _ _ _ _ (by simp; omega)]
    simp [List.getElem?_append, h2]

/-- A range reads as the bytes that were written there. -/
theorem Mem.readRange_write (m : Mem) (off : Nat) (bs : List Byte) :
    Mem.readRange (Mem.write m off bs) off bs.length = bs := by
  simpa using Mem.readRange_write_prefix m off bs []

/-- A range reads the same in two memories that agree on it. -/
theorem Mem.readRange_congr (m n : Mem) (off k : Nat)
    (h : ∀ a, off ≤ a → a < off + k → Mem.read m a = Mem.read n a) :
    Mem.readRange m off k = Mem.readRange n off k := by
  apply List.ext_getElem
  · simp
  · intro i h1 h2
    rw [Mem.readRange_getElem, Mem.readRange_getElem]
    exact h _ (by omega) (by simp at h1; omega)

/-! ## The canonical form -/

theorem Mem.wfFrom_cons (lo : Nat) (c : Host.Cell) (m : Mem) :
    Mem.wfFrom lo (c :: m) = true ↔ lo ≤ c.1 ∧ c.2 ≠ 0#8 ∧ Mem.wfFrom (c.1 + 1) m = true := by
  obtain ⟨a, b⟩ := c; simp [Mem.wfFrom, and_assoc]

theorem Mem.wfFrom_mono (lo lo' : Nat) (m : Mem) (h : lo' ≤ lo) (hm : Mem.wfFrom lo m = true) :
    Mem.wfFrom lo' m = true := by
  cases m with
  | nil => rfl
  | cons c m => rw [Mem.wfFrom_cons] at hm ⊢; exact ⟨by omega, hm.2⟩

theorem Mem.wfFrom_range (lo : Nat) (m : Mem) (h : Mem.wfFrom lo m = true) (c : Host.Cell) (hc : c ∈ m) :
    lo ≤ c.1 ∧ c.2 ≠ 0#8 := by
  induction m generalizing lo with
  | nil => simp at hc
  | cons d m ih =>
    rw [Mem.wfFrom_cons] at h
    rcases List.mem_cons.1 hc with rfl | hc
    · exact ⟨h.1, h.2.1⟩
    · have := ih _ h.2.2 hc; exact ⟨by omega, this.2⟩

theorem Mem.wfFrom_append (lo hi : Nat) (m n : Mem) (hm : Mem.wfFrom lo m = true)
    (hlt : ∀ c ∈ m, c.1 < hi) (hlo : lo ≤ hi) (hn : Mem.wfFrom hi n = true) :
    Mem.wfFrom lo (m ++ n) = true := by
  induction m generalizing lo with
  | nil => exact Mem.wfFrom_mono _ _ _ hlo hn
  | cons c m ih =>
    rw [Mem.wfFrom_cons] at hm
    rw [List.cons_append, Mem.wfFrom_cons]
    exact ⟨hm.1, hm.2.1, ih _ hm.2.2 (fun d hd => hlt d (by simp [hd])) (hlt c (by simp))⟩

theorem Mem.wfFrom_filter (lo : Nat) (p : Host.Cell → Bool) (m : Mem) (h : Mem.wfFrom lo m = true) :
    Mem.wfFrom lo (m.filter p) = true := by
  induction m generalizing lo with
  | nil => rfl
  | cons c m ih =>
    rw [Mem.wfFrom_cons] at h
    by_cases hp : p c = true
    · rw [List.filter_cons_of_pos hp, Mem.wfFrom_cons]; exact ⟨h.1, h.2.1, ih _ h.2.2⟩
    · rw [List.filter_cons_of_neg hp]; exact Mem.wfFrom_mono _ _ _ (by omega) (ih _ h.2.2)

theorem Mem.wfFrom_raise (lo : Nat) (m : Mem) (h : Mem.wfFrom 0 m = true) (hm : ∀ c ∈ m, lo ≤ c.1) :
    Mem.wfFrom lo m = true := by
  cases m with
  | nil => rfl
  | cons c m => rw [Mem.wfFrom_cons] at h ⊢; exact ⟨hm c (by simp), h.2⟩

theorem Mem.wfFrom_cells (off : Nat) (bs : List Byte) : Mem.wfFrom off (Mem.cells off bs) = true := by
  induction bs generalizing off with
  | nil => rfl
  | cons b bs ih =>
    simp only [Mem.cells]
    split
    · exact Mem.wfFrom_mono _ _ _ (by omega) (ih _)
    · rw [Mem.wfFrom_cons]; exact ⟨le_refl _, by assumption, ih _⟩

/-- Every write keeps the canonical form. -/
theorem Mem.wf_write (m : Mem) (off : Nat) (bs : List Byte) (h : Mem.wf m = true) :
    Mem.wf (Mem.write m off bs) = true := by
  unfold Mem.wf Mem.write at *
  refine Mem.wfFrom_append 0 (off + bs.length) _ _ (Mem.wfFrom_append 0 off _ _ ?_ ?_ ?_ ?_) ?_ ?_ ?_
  · exact Mem.wfFrom_filter _ _ _ h
  · intro c hc; simp at hc; omega
  · omega
  · exact Mem.wfFrom_cells _ _
  · intro c hc
    rcases List.mem_append.1 hc with hc | hc
    · simp at hc; omega
    · exact (Mem.cells_range _ _ c hc).2.1
  · omega
  · exact Mem.wfFrom_raise _ _ (Mem.wfFrom_filter _ _ _ h) (by intro c hc; simp at hc; omega)

/-- Where the cells of a written memory lie. -/
theorem Mem.mem_write (m : Mem) (off : Nat) (bs : List Byte) (c : Host.Cell) (hc : c ∈ Mem.write m off bs) :
    c ∈ m ∨ (off ≤ c.1 ∧ c.1 < off + bs.length) := by
  unfold Mem.write at hc
  rcases List.mem_append.1 hc with hc | hc
  · rcases List.mem_append.1 hc with hc | hc
    · exact .inl (List.mem_of_mem_filter hc)
    · have := Mem.cells_range _ _ c hc; exact .inr ⟨this.1, this.2.1⟩
  · exact .inl (List.mem_of_mem_filter hc)

/-- The reset memories are in canonical form. -/
theorem State.reset_memories_wf :
    Mem.wf State.reset.pma = true ∧ Mem.wf State.reset.bot.dataBuf = true := by decide

/-! ## Padding to whole words -/

theorem padWord_length (bs : List Byte) : (padWord bs).length = (bs.length + 3) / 4 * 4 := by
  simp [padWord]; omega

theorem padWord_le (bs : List Byte) (h : bs.length ≤ 64) : (padWord bs).length ≤ 64 := by
  rw [padWord_length]; omega

theorem le_padWord (bs : List Byte) : bs.length ≤ (padWord bs).length := by
  simp [padWord]

theorem readRange_write_padWord (m : Mem) (off : Nat) (bs : List Byte) :
    Mem.readRange (Mem.write m off (padWord bs)) off bs.length = bs :=
  Mem.readRange_write_prefix m off bs _

end Sys2Proof.Machine
end

