-- ==== Sys2Proof/Laws/State.lean ====
section
/-! SUPPORT. One lemma per field per update of the state, so that no later proof unfolds an update, and the laws of
the endpoint table's accessors. -/

namespace Sys2Proof.Machine

/-! ## The endpoint table -/

@[simp] theorem State.ep_setEp (s : State) (n m : Fin 8) (e : Endpoint) :
    (s.setEp n e).ep m = if m = n then e else s.ep m := by
  simp only [State.ep, State.setEp, Fin.getElem_fin, Vector.getElem_set]
  by_cases h : m = n
  · simp [h]
  · have : n.val ≠ m.val := fun e => h (Fin.ext e.symm)
    simp [h, this]

@[simp] theorem State.setEp_setEp (s : State) (n : Fin 8) (e e' : Endpoint) :
    (s.setEp n e).setEp n e' = s.setEp n e' := by
  simp [State.setEp]

theorem State.setEp_comm (s : State) (n m : Fin 8) (e e' : Endpoint) (h : n ≠ m) :
    (s.setEp n e).setEp m e' = (s.setEp m e').setEp n e := by
  have : n.val ≠ m.val := fun e => h (Fin.ext e)
  simp [State.setEp, Vector.set_comm _ _ this]

@[simp] theorem State.setEp_self (s : State) (n : Fin 8) : s.setEp n (s.ep n) = s := by
  simp [State.setEp, State.ep]

@[simp] theorem Endpoint.half_withHalf (e : Endpoint) (d d' : Dir) (h : Half) :
    (e.withHalf d h).half d' = if d' = d then h else e.half d' := by
  cases d <;> cases d' <;> rfl

@[simp] theorem Endpoint.withHalf_withHalf (e : Endpoint) (d : Dir) (h h' : Half) :
    (e.withHalf d h).withHalf d h' = e.withHalf d h' := by
  cases d <;> rfl

@[simp] theorem Endpoint.withHalf_type (e : Endpoint) (d : Dir) (h : Half) : (e.withHalf d h).type = e.type := by
  cases d <;> rfl

@[simp] theorem Endpoint.withHalf_cbRx (e : Endpoint) (d : Dir) (h : Half) : (e.withHalf d h).cbRx = e.cbRx := by
  cases d <;> rfl

@[simp] theorem Endpoint.withHalf_cbTx (e : Endpoint) (d : Dir) (h : Half) : (e.withHalf d h).cbTx = e.cbTx := by
  cases d <;> rfl

@[simp] theorem Endpoint.withHalf_cbRelease (e : Endpoint) (d : Dir) (h : Half) :
    (e.withHalf d h).cbRelease = e.cbRelease := by
  cases d <;> rfl

theorem State.half_setEp (s : State) (n m : Fin 8) (d : Dir) (e : Endpoint) :
    (s.setEp n e).half m d = if m = n then e.half d else s.half m d := by
  simp only [State.half, State.ep_setEp]; split <;> rfl

@[simp] theorem State.half_setHalf (s : State) (n m : Fin 8) (d d' : Dir) (h : Half) :
    (s.setHalf n d h).half m d' = if m = n ∧ d' = d then h else s.half m d' := by
  simp only [State.half, State.setHalf, State.ep_setEp]
  by_cases hm : m = n
  · subst hm; simp
  · simp [hm]

theorem State.ep_setHalf (s : State) (n m : Fin 8) (d : Dir) (h : Half) :
    (s.setHalf n d h).ep m = if m = n then (s.ep n).withHalf d h else s.ep m := by
  simp [State.setHalf]

@[simp] theorem State.setHalf_setHalf (s : State) (n : Fin 8) (d : Dir) (h h' : Half) :
    (s.setHalf n d h).setHalf n d h' = s.setHalf n d h' := by
  simp [State.setHalf]

@[simp] theorem State.setHalf_self (s : State) (n : Fin 8) (d : Dir) : s.setHalf n d (s.half n d) = s := by
  have : (s.ep n).withHalf d ((s.ep n).half d) = s.ep n := by cases d <;> rfl
  simp [State.setHalf, State.half, this]

@[simp] theorem State.ep_setHalf_type (s : State) (n m : Fin 8) (d : Dir) (h : Half) :
    ((s.setHalf n d h).ep m).type = (s.ep m).type := by
  rw [State.ep_setHalf]; split <;> simp [*]

@[simp] theorem State.ep_setHalf_cbRx (s : State) (n m : Fin 8) (d : Dir) (h : Half) :
    ((s.setHalf n d h).ep m).cbRx = (s.ep m).cbRx := by
  rw [State.ep_setHalf]; split <;> simp [*]

@[simp] theorem State.ep_setHalf_cbTx (s : State) (n m : Fin 8) (d : Dir) (h : Half) :
    ((s.setHalf n d h).ep m).cbTx = (s.ep m).cbTx := by
  rw [State.ep_setHalf]; split <;> simp [*]

@[simp] theorem State.ep_setHalf_cbRelease (s : State) (n m : Fin 8) (d : Dir) (h : Half) :
    ((s.setHalf n d h).ep m).cbRelease = (s.ep m).cbRelease := by
  rw [State.ep_setHalf]; split <;> simp [*]

/-! `s.setEp n e` -/

@[simp] theorem setEp_enumState (s : State) (n : Fin 8) (e : Endpoint) :
    (s.setEp n e).usb.enumState = s.usb.enumState := rfl

@[simp] theorem setEp_devAddress (s : State) (n : Fin 8) (e : Endpoint) :
    (s.setEp n e).usb.devAddress = s.usb.devAddress := rfl

@[simp] theorem setEp_pendingAddress (s : State) (n : Fin 8) (e : Endpoint) :
    (s.setEp n e).usb.pendingAddress = s.usb.pendingAddress := rfl

@[simp] theorem setEp_configValue (s : State) (n : Fin 8) (e : Endpoint) :
    (s.setEp n e).usb.configValue = s.usb.configValue := rfl

@[simp] theorem setEp_pullup (s : State) (n : Fin 8) (e : Endpoint) :
    (s.setEp n e).usb.pullup = s.usb.pullup := rfl

@[simp] theorem setEp_setup (s : State) (n : Fin 8) (e : Endpoint) :
    (s.setEp n e).usb.setup = s.usb.setup := rfl

@[simp] theorem setEp_ifdrv (s : State) (n : Fin 8) (e : Endpoint) :
    (s.setEp n e).usb.ifdrv = s.usb.ifdrv := rfl

theorem setEp_usb (s : State) (n : Fin 8) (e : Endpoint) :
    (s.setEp n e).usb = { s.usb with ep := s.usb.ep.set n e } := rfl

@[simp] theorem setEp_bot (s : State) (n : Fin 8) (e : Endpoint) : (s.setEp n e).bot = s.bot := rfl

@[simp] theorem setEp_scsi (s : State) (n : Fin 8) (e : Endpoint) : (s.setEp n e).scsi = s.scsi := rfl

@[simp] theorem setEp_pma (s : State) (n : Fin 8) (e : Endpoint) : (s.setEp n e).pma = s.pma := rfl

@[simp] theorem setEp_medium (s : State) (n : Fin 8) (e : Endpoint) : (s.setEp n e).medium = s.medium := rfl

@[simp] theorem setEp_inputs (s : State) (n : Fin 8) (e : Endpoint) : (s.setEp n e).inputs = s.inputs := rfl

@[simp] theorem setEp_cfg (s : State) (n : Fin 8) (e : Endpoint) : (s.setEp n e).cfg = s.cfg := rfl

/-! `s.setHalf n d h` -/

@[simp] theorem setHalf_enumState (s : State) (n : Fin 8) (d : Dir) (h : Half) :
    (s.setHalf n d h).usb.enumState = s.usb.enumState := rfl

@[simp] theorem setHalf_devAddress (s : State) (n : Fin 8) (d : Dir) (h : Half) :
    (s.setHalf n d h).usb.devAddress = s.usb.devAddress := rfl

@[simp] theorem setHalf_pendingAddress (s : State) (n : Fin 8) (d : Dir) (h : Half) :
    (s.setHalf n d h).usb.pendingAddress = s.usb.pendingAddress := rfl

@[simp] theorem setHalf_configValue (s : State) (n : Fin 8) (d : Dir) (h : Half) :
    (s.setHalf n d h).usb.configValue = s.usb.configValue := rfl

@[simp] theorem setHalf_pullup (s : State) (n : Fin 8) (d : Dir) (h : Half) :
    (s.setHalf n d h).usb.pullup = s.usb.pullup := rfl

@[simp] theorem setHalf_setup (s : State) (n : Fin 8) (d : Dir) (h : Half) :
    (s.setHalf n d h).usb.setup = s.usb.setup := rfl

@[simp] theorem setHalf_ifdrv (s : State) (n : Fin 8) (d : Dir) (h : Half) :
    (s.setHalf n d h).usb.ifdrv = s.usb.ifdrv := rfl

theorem setHalf_usb (s : State) (n : Fin 8) (d : Dir) (h : Half) :
    (s.setHalf n d h).usb = { s.usb with ep := s.usb.ep.set n ((s.ep n).withHalf d h) } := rfl

@[simp] theorem setHalf_bot (s : State) (n : Fin 8) (d : Dir) (h : Half) : (s.setHalf n d h).bot = s.bot := rfl

@[simp] theorem setHalf_scsi (s : State) (n : Fin 8) (d : Dir) (h : Half) : (s.setHalf n d h).scsi = s.scsi := rfl

@[simp] theorem setHalf_pma (s : State) (n : Fin 8) (d : Dir) (h : Half) : (s.setHalf n d h).pma = s.pma := rfl

@[simp] theorem setHalf_medium (s : State) (n : Fin 8) (d : Dir) (h : Half) :
    (s.setHalf n d h).medium = s.medium := rfl

@[simp] theorem setHalf_inputs (s : State) (n : Fin 8) (d : Dir) (h : Half) :
    (s.setHalf n d h).inputs = s.inputs := rfl

@[simp] theorem setHalf_cfg (s : State) (n : Fin 8) (d : Dir) (h : Half) : (s.setHalf n d h).cfg = s.cfg := rfl

/-! `latchSetup x s` -/

@[simp] theorem latchSetup_usb (s : State) (x : Setup) : (latchSetup x s).usb = { s.usb with setup := x } := rfl

@[simp] theorem latchSetup_bot (s : State) (x : Setup) : (latchSetup x s).bot = s.bot := rfl

@[simp] theorem latchSetup_scsi (s : State) (x : Setup) : (latchSetup x s).scsi = s.scsi := rfl

@[simp] theorem latchSetup_pma (s : State) (x : Setup) : (latchSetup x s).pma = s.pma := rfl

@[simp] theorem latchSetup_medium (s : State) (x : Setup) : (latchSetup x s).medium = s.medium := rfl

@[simp] theorem latchSetup_inputs (s : State) (x : Setup) : (latchSetup x s).inputs = s.inputs := rfl

@[simp] theorem latchSetup_cfg (s : State) (x : Setup) : (latchSetup x s).cfg = s.cfg := rfl

@[simp] theorem latchSetup_ep (s : State) (x : Setup) (n : Fin 8) :
    (latchSetup x s).ep n = s.ep n := rfl

@[simp] theorem latchSetup_half (s : State) (x : Setup) (n : Fin 8) (d : Dir) :
    (latchSetup x s).half n d = s.half n d := rfl

/-! `s.setRxFlag` -/

@[simp] theorem setRxFlag_usb (s : State) : (s.setRxFlag).usb = s.usb := rfl

@[simp] theorem setRxFlag_bot (s : State) : (s.setRxFlag).bot = { s.bot with rxFlag := true } := rfl

@[simp] theorem setRxFlag_scsi (s : State) : (s.setRxFlag).scsi = s.scsi := rfl

@[simp] theorem setRxFlag_pma (s : State) : (s.setRxFlag).pma = s.pma := rfl

@[simp] theorem setRxFlag_medium (s : State) : (s.setRxFlag).medium = s.medium := rfl

@[simp] theorem setRxFlag_inputs (s : State) : (s.setRxFlag).inputs = s.inputs := rfl

@[simp] theorem setRxFlag_cfg (s : State) : (s.setRxFlag).cfg = s.cfg := rfl

@[simp] theorem setRxFlag_ep (s : State) (n : Fin 8) :
    (s.setRxFlag).ep n = s.ep n := rfl

@[simp] theorem setRxFlag_half (s : State) (n : Fin 8) (d : Dir) :
    (s.setRxFlag).half n d = s.half n d := rfl

/-! `s.setTxFlag` -/

@[simp] theorem setTxFlag_usb (s : State) : (s.setTxFlag).usb = s.usb := rfl

@[simp] theorem setTxFlag_bot (s : State) : (s.setTxFlag).bot = { s.bot with txFlag := true } := rfl

@[simp] theorem setTxFlag_scsi (s : State) : (s.setTxFlag).scsi = s.scsi := rfl

@[simp] theorem setTxFlag_pma (s : State) : (s.setTxFlag).pma = s.pma := rfl

@[simp] theorem setTxFlag_medium (s : State) : (s.setTxFlag).medium = s.medium := rfl

@[simp] theorem setTxFlag_inputs (s : State) : (s.setTxFlag).inputs = s.inputs := rfl

@[simp] theorem setTxFlag_cfg (s : State) : (s.setTxFlag).cfg = s.cfg := rfl

@[simp] theorem setTxFlag_ep (s : State) (n : Fin 8) :
    (s.setTxFlag).ep n = s.ep n := rfl

@[simp] theorem setTxFlag_half (s : State) (n : Fin 8) (d : Dir) :
    (s.setTxFlag).half n d = s.half n d := rfl

/-! `s.setErrFlag` -/

@[simp] theorem setErrFlag_usb (s : State) : (s.setErrFlag).usb = s.usb := rfl

@[simp] theorem setErrFlag_bot (s : State) : (s.setErrFlag).bot = { s.bot with errFlag := true } := rfl

@[simp] theorem setErrFlag_scsi (s : State) : (s.setErrFlag).scsi = s.scsi := rfl

@[simp] theorem setErrFlag_pma (s : State) : (s.setErrFlag).pma = s.pma := rfl

@[simp] theorem setErrFlag_medium (s : State) : (s.setErrFlag).medium = s.medium := rfl

@[simp] theorem setErrFlag_inputs (s : State) : (s.setErrFlag).inputs = s.inputs := rfl

@[simp] theorem setErrFlag_cfg (s : State) : (s.setErrFlag).cfg = s.cfg := rfl

@[simp] theorem setErrFlag_ep (s : State) (n : Fin 8) :
    (s.setErrFlag).ep n = s.ep n := rfl

@[simp] theorem setErrFlag_half (s : State) (n : Fin 8) (d : Dir) :
    (s.setErrFlag).half n d = s.half n d := rfl

/-! `s.clearRxFlag` -/

@[simp] theorem clearRxFlag_usb (s : State) : (s.clearRxFlag).usb = s.usb := rfl

@[simp] theorem clearRxFlag_bot (s : State) : (s.clearRxFlag).bot = { s.bot with rxFlag := false } := rfl

@[simp] theorem clearRxFlag_scsi (s : State) : (s.clearRxFlag).scsi = s.scsi := rfl

@[simp] theorem clearRxFlag_pma (s : State) : (s.clearRxFlag).pma = s.pma := rfl

@[simp] theorem clearRxFlag_medium (s : State) : (s.clearRxFlag).medium = s.medium := rfl

@[simp] theorem clearRxFlag_inputs (s : State) : (s.clearRxFlag).inputs = s.inputs := rfl

@[simp] theorem clearRxFlag_cfg (s : State) : (s.clearRxFlag).cfg = s.cfg := rfl

@[simp] theorem clearRxFlag_ep (s : State) (n : Fin 8) :
    (s.clearRxFlag).ep n = s.ep n := rfl

@[simp] theorem clearRxFlag_half (s : State) (n : Fin 8) (d : Dir) :
    (s.clearRxFlag).half n d = s.half n d := rfl

/-! `s.clearTxFlag` -/

@[simp] theorem clearTxFlag_usb (s : State) : (s.clearTxFlag).usb = s.usb := rfl

@[simp] theorem clearTxFlag_bot (s : State) : (s.clearTxFlag).bot = { s.bot with txFlag := false } := rfl

@[simp] theorem clearTxFlag_scsi (s : State) : (s.clearTxFlag).scsi = s.scsi := rfl

@[simp] theorem clearTxFlag_pma (s : State) : (s.clearTxFlag).pma = s.pma := rfl

@[simp] theorem clearTxFlag_medium (s : State) : (s.clearTxFlag).medium = s.medium := rfl

@[simp] theorem clearTxFlag_inputs (s : State) : (s.clearTxFlag).inputs = s.inputs := rfl

@[simp] theorem clearTxFlag_cfg (s : State) : (s.clearTxFlag).cfg = s.cfg := rfl

@[simp] theorem clearTxFlag_ep (s : State) (n : Fin 8) :
    (s.clearTxFlag).ep n = s.ep n := rfl

@[simp] theorem clearTxFlag_half (s : State) (n : Fin 8) (d : Dir) :
    (s.clearTxFlag).half n d = s.half n d := rfl

/-! `s.clearErrFlag` -/

@[simp] theorem clearErrFlag_usb (s : State) : (s.clearErrFlag).usb = s.usb := rfl

@[simp] theorem clearErrFlag_bot (s : State) : (s.clearErrFlag).bot = { s.bot with errFlag := false } := rfl

@[simp] theorem clearErrFlag_scsi (s : State) : (s.clearErrFlag).scsi = s.scsi := rfl

@[simp] theorem clearErrFlag_pma (s : State) : (s.clearErrFlag).pma = s.pma := rfl

@[simp] theorem clearErrFlag_medium (s : State) : (s.clearErrFlag).medium = s.medium := rfl

@[simp] theorem clearErrFlag_inputs (s : State) : (s.clearErrFlag).inputs = s.inputs := rfl

@[simp] theorem clearErrFlag_cfg (s : State) : (s.clearErrFlag).cfg = s.cfg := rfl

@[simp] theorem clearErrFlag_ep (s : State) (n : Fin 8) :
    (s.clearErrFlag).ep n = s.ep n := rfl

@[simp] theorem clearErrFlag_half (s : State) (n : Fin 8) (d : Dir) :
    (s.clearErrFlag).half n d = s.half n d := rfl

/-! `s.clearRstFlag` -/

@[simp] theorem clearRstFlag_usb (s : State) : (s.clearRstFlag).usb = s.usb := rfl

@[simp] theorem clearRstFlag_bot (s : State) : (s.clearRstFlag).bot = { s.bot with rstFlag := false } := rfl

@[simp] theorem clearRstFlag_scsi (s : State) : (s.clearRstFlag).scsi = s.scsi := rfl

@[simp] theorem clearRstFlag_pma (s : State) : (s.clearRstFlag).pma = s.pma := rfl

@[simp] theorem clearRstFlag_medium (s : State) : (s.clearRstFlag).medium = s.medium := rfl

@[simp] theorem clearRstFlag_inputs (s : State) : (s.clearRstFlag).inputs = s.inputs := rfl

@[simp] theorem clearRstFlag_cfg (s : State) : (s.clearRstFlag).cfg = s.cfg := rfl

@[simp] theorem clearRstFlag_ep (s : State) (n : Fin 8) :
    (s.clearRstFlag).ep n = s.ep n := rfl

@[simp] theorem clearRstFlag_half (s : State) (n : Fin 8) (d : Dir) :
    (s.clearRstFlag).half n d = s.half n d := rfl

/-! `s.requestReset` -/

@[simp] theorem requestReset_usb (s : State) : (s.requestReset).usb = s.usb := rfl

@[simp] theorem requestReset_bot (s : State) :
    (s.requestReset).bot = { s.bot with phase := .recovery, resetPending := true, rstFlag := true } := rfl

@[simp] theorem requestReset_scsi (s : State) : (s.requestReset).scsi = s.scsi := rfl

@[simp] theorem requestReset_pma (s : State) : (s.requestReset).pma = s.pma := rfl

@[simp] theorem requestReset_medium (s : State) : (s.requestReset).medium = s.medium := rfl

@[simp] theorem requestReset_inputs (s : State) : (s.requestReset).inputs = s.inputs := rfl

@[simp] theorem requestReset_cfg (s : State) : (s.requestReset).cfg = s.cfg := rfl

@[simp] theorem requestReset_ep (s : State) (n : Fin 8) :
    (s.requestReset).ep n = s.ep n := rfl

@[simp] theorem requestReset_half (s : State) (n : Fin 8) (d : Dir) :
    (s.requestReset).half n d = s.half n d := rfl

/-! `s.setStatus v` -/

@[simp] theorem setStatus_usb (s : State) (v : Byte) : (s.setStatus v).usb = s.usb := rfl

@[simp] theorem setStatus_bot (s : State) (v : Byte) :
    (s.setStatus v).bot = { s.bot with csw := { s.bot.csw with status := v } } := rfl

@[simp] theorem setStatus_scsi (s : State) (v : Byte) : (s.setStatus v).scsi = s.scsi := rfl

@[simp] theorem setStatus_pma (s : State) (v : Byte) : (s.setStatus v).pma = s.pma := rfl

@[simp] theorem setStatus_medium (s : State) (v : Byte) : (s.setStatus v).medium = s.medium := rfl

@[simp] theorem setStatus_inputs (s : State) (v : Byte) : (s.setStatus v).inputs = s.inputs := rfl

@[simp] theorem setStatus_cfg (s : State) (v : Byte) : (s.setStatus v).cfg = s.cfg := rfl

@[simp] theorem setStatus_ep (s : State) (v : Byte) (n : Fin 8) :
    (s.setStatus v).ep n = s.ep n := rfl

@[simp] theorem setStatus_half (s : State) (v : Byte) (n : Fin 8) (d : Dir) :
    (s.setStatus v).half n d = s.half n d := rfl

/-! `s.moved n` -/

@[simp] theorem moved_usb (s : State) (n : Nat) : (s.moved n).usb = s.usb := rfl

@[simp] theorem moved_bot (s : State) (n : Nat) :
    (s.moved n).bot = { s.bot with
      dataOffset := s.bot.dataOffset + BitVec.ofNat 32 n,
      csw := { s.bot.csw with residue := s.bot.csw.residue - BitVec.ofNat 32 n } } := rfl

@[simp] theorem moved_scsi (s : State) (n : Nat) : (s.moved n).scsi = s.scsi := rfl

@[simp] theorem moved_pma (s : State) (n : Nat) : (s.moved n).pma = s.pma := rfl

@[simp] theorem moved_medium (s : State) (n : Nat) : (s.moved n).medium = s.medium := rfl

@[simp] theorem moved_inputs (s : State) (n : Nat) : (s.moved n).inputs = s.inputs := rfl

@[simp] theorem moved_cfg (s : State) (n : Nat) : (s.moved n).cfg = s.cfg := rfl

@[simp] theorem moved_ep (s : State) (k : Nat) (n : Fin 8) :
    (s.moved k).ep n = s.ep n := rfl

@[simp] theorem moved_half (s : State) (k : Nat) (n : Fin 8) (d : Dir) :
    (s.moved k).half n d = s.half n d := rfl

/-! `s.setPhase p` -/

@[simp] theorem setPhase_usb (s : State) (p : Phase) : (s.setPhase p).usb = s.usb := rfl

@[simp] theorem setPhase_bot (s : State) (p : Phase) : (s.setPhase p).bot = { s.bot with phase := p } := rfl

@[simp] theorem setPhase_scsi (s : State) (p : Phase) : (s.setPhase p).scsi = s.scsi := rfl

@[simp] theorem setPhase_pma (s : State) (p : Phase) : (s.setPhase p).pma = s.pma := rfl

@[simp] theorem setPhase_medium (s : State) (p : Phase) : (s.setPhase p).medium = s.medium := rfl

@[simp] theorem setPhase_inputs (s : State) (p : Phase) : (s.setPhase p).inputs = s.inputs := rfl

@[simp] theorem setPhase_cfg (s : State) (p : Phase) : (s.setPhase p).cfg = s.cfg := rfl

@[simp] theorem setPhase_ep (s : State) (p : Phase) (n : Fin 8) :
    (s.setPhase p).ep n = s.ep n := rfl

@[simp] theorem setPhase_half (s : State) (p : Phase) (n : Fin 8) (d : Dir) :
    (s.setPhase p).half n d = s.half n d := rfl

/-! `putChunk bytes s` -/

@[simp] theorem putChunk_usb (s : State) (bytes : List Byte) : (putChunk bytes s).usb = s.usb := rfl

@[simp] theorem putChunk_bot (s : State) (bytes : List Byte) :
    (putChunk bytes s).bot = { s.bot with
      dataBuf := Mem.write s.bot.dataBuf 0 (bytes.take 512), dataLen := BitVec.ofNat 32 bytes.length } := rfl

@[simp] theorem putChunk_scsi (s : State) (bytes : List Byte) : (putChunk bytes s).scsi = s.scsi := rfl

@[simp] theorem putChunk_pma (s : State) (bytes : List Byte) : (putChunk bytes s).pma = s.pma := rfl

@[simp] theorem putChunk_medium (s : State) (bytes : List Byte) : (putChunk bytes s).medium = s.medium := rfl

@[simp] theorem putChunk_inputs (s : State) (bytes : List Byte) : (putChunk bytes s).inputs = s.inputs := rfl

@[simp] theorem putChunk_cfg (s : State) (bytes : List Byte) : (putChunk bytes s).cfg = s.cfg := rfl

@[simp] theorem putChunk_ep (s : State) (bytes : List Byte) (n : Fin 8) :
    (putChunk bytes s).ep n = s.ep n := rfl

@[simp] theorem putChunk_half (s : State) (bytes : List Byte) (n : Fin 8) (d : Dir) :
    (putChunk bytes s).half n d = s.half n d := rfl

/-! `acceptCbw c s` -/

@[simp] theorem acceptCbw_usb (s : State) (c : Cbw) : (acceptCbw c s).usb = s.usb := rfl

@[simp] theorem acceptCbw_bot (s : State) (c : Cbw) :
    (acceptCbw c s).bot = { s.bot with
      cbw := c, csw := ⟨c.tag, c.dtl, 0#8⟩, dataOffset := 0#32, dataLen := 0#32, moreData := false } := rfl

@[simp] theorem acceptCbw_scsi (s : State) (c : Cbw) : (acceptCbw c s).scsi = s.scsi := rfl

@[simp] theorem acceptCbw_pma (s : State) (c : Cbw) : (acceptCbw c s).pma = s.pma := rfl

@[simp] theorem acceptCbw_medium (s : State) (c : Cbw) : (acceptCbw c s).medium = s.medium := rfl

@[simp] theorem acceptCbw_inputs (s : State) (c : Cbw) : (acceptCbw c s).inputs = s.inputs := rfl

@[simp] theorem acceptCbw_cfg (s : State) (c : Cbw) : (acceptCbw c s).cfg = s.cfg := rfl

@[simp] theorem acceptCbw_ep (s : State) (c : Cbw) (n : Fin 8) :
    (acceptCbw c s).ep n = s.ep n := rfl

@[simp] theorem acceptCbw_half (s : State) (c : Cbw) (n : Fin 8) (d : Dir) :
    (acceptCbw c s).half n d = s.half n d := rfl

/-! `s.ret code` -/

@[simp] theorem ret_usb (s : State) (code : Int) : (s.ret code).usb = s.usb := rfl

@[simp] theorem ret_bot (s : State) (code : Int) : (s.ret code).bot = s.bot := rfl

@[simp] theorem ret_scsi (s : State) (code : Int) : (s.ret code).scsi = { s.scsi with code := code } := rfl

@[simp] theorem ret_pma (s : State) (code : Int) : (s.ret code).pma = s.pma := rfl

@[simp] theorem ret_medium (s : State) (code : Int) : (s.ret code).medium = s.medium := rfl

@[simp] theorem ret_inputs (s : State) (code : Int) : (s.ret code).inputs = s.inputs := rfl

@[simp] theorem ret_cfg (s : State) (code : Int) : (s.ret code).cfg = s.cfg := rfl

@[simp] theorem ret_ep (s : State) (code : Int) (n : Fin 8) :
    (s.ret code).ep n = s.ep n := rfl

@[simp] theorem ret_half (s : State) (code : Int) (n : Fin 8) (d : Dir) :
    (s.ret code).half n d = s.half n d := rfl

/-! `s.setCtx v` -/

@[simp] theorem setCtx_usb (s : State) (v : Word32) : (s.setCtx v).usb = s.usb := rfl

@[simp] theorem setCtx_bot (s : State) (v : Word32) : (s.setCtx v).bot = s.bot := rfl

@[simp] theorem setCtx_scsi (s : State) (v : Word32) : (s.setCtx v).scsi = { s.scsi with ctx := v } := rfl

@[simp] theorem setCtx_pma (s : State) (v : Word32) : (s.setCtx v).pma = s.pma := rfl

@[simp] theorem setCtx_medium (s : State) (v : Word32) : (s.setCtx v).medium = s.medium := rfl

@[simp] theorem setCtx_inputs (s : State) (v : Word32) : (s.setCtx v).inputs = s.inputs := rfl

@[simp] theorem setCtx_cfg (s : State) (v : Word32) : (s.setCtx v).cfg = s.cfg := rfl

@[simp] theorem setCtx_ep (s : State) (v : Word32) (n : Fin 8) :
    (s.setCtx v).ep n = s.ep n := rfl

@[simp] theorem setCtx_half (s : State) (v : Word32) (n : Fin 8) (d : Dir) :
    (s.setCtx v).half n d = s.half n d := rfl

/-! `setSense key asc ascq s` -/

@[simp] theorem setSense_usb (s : State) (key : BitVec 4) (asc ascq : Byte) :
    (setSense key asc ascq s).usb = s.usb := rfl

@[simp] theorem setSense_bot (s : State) (key : BitVec 4) (asc ascq : Byte) :
    (setSense key asc ascq s).bot = s.bot := rfl

@[simp] theorem setSense_scsi (s : State) (key : BitVec 4) (asc ascq : Byte) :
    (setSense key asc ascq s).scsi = { s.scsi with sense := ⟨0x70#8, key, asc, ascq, 0#32, 0#32, 10#8⟩ } := rfl

@[simp] theorem setSense_pma (s : State) (key : BitVec 4) (asc ascq : Byte) :
    (setSense key asc ascq s).pma = s.pma := rfl

@[simp] theorem setSense_medium (s : State) (key : BitVec 4) (asc ascq : Byte) :
    (setSense key asc ascq s).medium = s.medium := rfl

@[simp] theorem setSense_inputs (s : State) (key : BitVec 4) (asc ascq : Byte) :
    (setSense key asc ascq s).inputs = s.inputs := rfl

@[simp] theorem setSense_cfg (s : State) (key : BitVec 4) (asc ascq : Byte) :
    (setSense key asc ascq s).cfg = s.cfg := rfl

@[simp] theorem setSense_ep (s : State) (key : BitVec 4) (asc ascq : Byte) (n : Fin 8) :
    (setSense key asc ascq s).ep n = s.ep n := rfl

@[simp] theorem setSense_half (s : State) (key : BitVec 4) (asc ascq : Byte) (n : Fin 8) (d : Dir) :
    (setSense key asc ascq s).half n d = s.half n d := rfl

/-! `commandFailed key asc ascq code s` -/

@[simp] theorem commandFailed_usb (s : State) (key : BitVec 4) (asc ascq : Byte) (code : Int) :
    (commandFailed key asc ascq code s).usb = s.usb := rfl

@[simp] theorem commandFailed_bot (s : State) (key : BitVec 4) (asc ascq : Byte) (code : Int) :
    (commandFailed key asc ascq code s).bot = s.bot := rfl

@[simp] theorem commandFailed_scsi (s : State) (key : BitVec 4) (asc ascq : Byte) (code : Int) :
    (commandFailed key asc ascq code s).scsi = { s.scsi with sense := ⟨0x70#8, key, asc, ascq, 0#32, 0#32, 10#8⟩, code := code } := rfl

@[simp] theorem commandFailed_pma (s : State) (key : BitVec 4) (asc ascq : Byte) (code : Int) :
    (commandFailed key asc ascq code s).pma = s.pma := rfl

@[simp] theorem commandFailed_medium (s : State) (key : BitVec 4) (asc ascq : Byte) (code : Int) :
    (commandFailed key asc ascq code s).medium = s.medium := rfl

@[simp] theorem commandFailed_inputs (s : State) (key : BitVec 4) (asc ascq : Byte) (code : Int) :
    (commandFailed key asc ascq code s).inputs = s.inputs := rfl

@[simp] theorem commandFailed_cfg (s : State) (key : BitVec 4) (asc ascq : Byte) (code : Int) :
    (commandFailed key asc ascq code s).cfg = s.cfg := rfl

@[simp] theorem commandFailed_ep (s : State) (key : BitVec 4) (asc ascq : Byte) (code : Int) (n : Fin 8) :
    (commandFailed key asc ascq code s).ep n = s.ep n := rfl

@[simp] theorem commandFailed_half (s : State) (key : BitVec 4) (asc ascq : Byte) (code : Int) (n : Fin 8) (d : Dir) :
    (commandFailed key asc ascq code s).half n d = s.half n d := rfl

/-! `scsiComplete s` -/

@[simp] theorem scsiComplete_usb (s : State) : (scsiComplete s).usb = s.usb := rfl

@[simp] theorem scsiComplete_bot (s : State) : (scsiComplete s).bot = s.bot := rfl

@[simp] theorem scsiComplete_scsi (s : State) : (scsiComplete s).scsi = { s.scsi with ctx := 0#32 } := rfl

@[simp] theorem scsiComplete_pma (s : State) : (scsiComplete s).pma = s.pma := rfl

@[simp] theorem scsiComplete_medium (s : State) : (scsiComplete s).medium = s.medium := rfl

@[simp] theorem scsiComplete_inputs (s : State) : (scsiComplete s).inputs = s.inputs := rfl

@[simp] theorem scsiComplete_cfg (s : State) : (scsiComplete s).cfg = s.cfg := rfl

@[simp] theorem scsiComplete_ep (s : State) (n : Fin 8) :
    (scsiComplete s).ep n = s.ep n := rfl

@[simp] theorem scsiComplete_half (s : State) (n : Fin 8) (d : Dir) :
    (scsiComplete s).half n d = s.half n d := rfl

/-! `scsiReset s` -/

@[simp] theorem scsiReset_usb (s : State) : (scsiReset s).usb = s.usb := rfl

@[simp] theorem scsiReset_bot (s : State) : (scsiReset s).bot = s.bot := rfl

@[simp] theorem scsiReset_scsi (s : State) : (scsiReset s).scsi = { s.scsi with ctx := 0#32, sense := noSense } := rfl

@[simp] theorem scsiReset_pma (s : State) : (scsiReset s).pma = s.pma := rfl

@[simp] theorem scsiReset_medium (s : State) : (scsiReset s).medium = s.medium := rfl

@[simp] theorem scsiReset_inputs (s : State) : (scsiReset s).inputs = s.inputs := rfl

@[simp] theorem scsiReset_cfg (s : State) : (scsiReset s).cfg = s.cfg := rfl

@[simp] theorem scsiReset_ep (s : State) (n : Fin 8) :
    (scsiReset s).ep n = s.ep n := rfl

@[simp] theorem scsiReset_half (s : State) (n : Fin 8) (d : Dir) :
    (scsiReset s).half n d = s.half n d := rfl

/-! `reply bytes s` -/

@[simp] theorem reply_usb (s : State) (bytes : List Byte) : (reply bytes s).usb = s.usb := rfl

@[simp] theorem reply_bot (s : State) (bytes : List Byte) :
    (reply bytes s).bot = { s.bot with
      dataBuf := Mem.write s.bot.dataBuf 0 (bytes.take 512), dataLen := BitVec.ofNat 32 bytes.length } := rfl

@[simp] theorem reply_scsi (s : State) (bytes : List Byte) : (reply bytes s).scsi = { s.scsi with code := 1 } := rfl

@[simp] theorem reply_pma (s : State) (bytes : List Byte) : (reply bytes s).pma = s.pma := rfl

@[simp] theorem reply_medium (s : State) (bytes : List Byte) : (reply bytes s).medium = s.medium := rfl

@[simp] theorem reply_inputs (s : State) (bytes : List Byte) : (reply bytes s).inputs = s.inputs := rfl

@[simp] theorem reply_cfg (s : State) (bytes : List Byte) : (reply bytes s).cfg = s.cfg := rfl

@[simp] theorem reply_ep (s : State) (bytes : List Byte) (n : Fin 8) :
    (reply bytes s).ep n = s.ep n := rfl

@[simp] theorem reply_half (s : State) (bytes : List Byte) (n : Fin 8) (d : Dir) :
    (reply bytes s).half n d = s.half n d := rfl

/-! Plain record updates: what depends on the endpoint table alone, and on packet memory -/

@[simp] theorem State.ep_mk (s : State) (b : Bot) (c : Scsi) (p : Mem) (m : Medium) (i : List Event) (g : Config)
    (n : Fin 8) : State.ep ⟨s.usb, b, c, p, m, i, g⟩ n = s.ep n := rfl

@[simp] theorem State.half_mk (s : State) (b : Bot) (c : Scsi) (p : Mem) (m : Medium) (i : List Event) (g : Config)
    (n : Fin 8) (d : Dir) : State.half ⟨s.usb, b, c, p, m, i, g⟩ n d = s.half n d := rfl

@[simp] theorem State.ep_mk_usb (s : State) (e : EnumState) (da : BitVec 7) (pa : Option (BitVec 7)) (cv : Byte)
    (pu : Bool) (st : Setup) (dr : List (Option Driver)) (b : Bot) (c : Scsi) (p : Mem) (m : Medium) (i : List Event)
    (g : Config) (n : Fin 8) :
    State.ep ⟨⟨e, da, pa, cv, pu, s.usb.ep, st, dr⟩, b, c, p, m, i, g⟩ n = s.ep n := rfl

@[simp] theorem State.half_mk_usb (s : State) (e : EnumState) (da : BitVec 7) (pa : Option (BitVec 7)) (cv : Byte)
    (pu : Bool) (st : Setup) (dr : List (Option Driver)) (b : Bot) (c : Scsi) (p : Mem) (m : Medium) (i : List Event)
    (g : Config) (n : Fin 8) (d : Dir) :
    State.half ⟨⟨e, da, pa, cv, pu, s.usb.ep, st, dr⟩, b, c, p, m, i, g⟩ n d = s.half n d := rfl

/-- The packet queued on a slot depends on packet memory and on the slot's count. -/
theorem State.txBuf_congr (s t : State) (n : Fin 8) (hp : t.pma = s.pma)
    (hc : (t.half n .dIn).count = (s.half n .dIn).count) : t.txBuf n = s.txBuf n := by
  simp only [State.txBuf, hp, hc]

/-- The packet received on a slot depends on packet memory and on the slot's count. -/
theorem State.rxBuf_congr (s t : State) (n : Fin 8) (hp : t.pma = s.pma)
    (hc : (t.half n .dOut).count = (s.half n .dOut).count) : t.rxBuf n = s.rxBuf n := by
  simp only [State.rxBuf, hp, hc]

end Sys2Proof.Machine
end

