-- ==== Sys2Proof/Laws/Ops.lean ====
section
/-! SUPPORT. One lemma per shared operation: everything it can do. -/

namespace Sys2Proof.Machine

/-! ## Sequencing -/

@[simp] theorem andThen_next (s : State) (f : State → Res) : andThen (.next s) f = f s := rfl

@[simp] theorem andThen_fault (r : Fault) (f : State → Res) : andThen (.fault r) f = .fault r := rfl

@[simp] theorem andThen_refused (r : Refusal) (f : State → Res) : andThen (.refused r) f = .refused r := rfl

/-- A sequence ends in a next state exactly when both parts do. -/
theorem andThen_eq_next (o : Res) (f : State → Res) (t : State) :
    andThen o f = .next t ↔ ∃ u, o = .next u ∧ f u = .next t := by
  cases o <;> simp

/-- A sequence faults exactly when one of its parts does. -/
theorem andThen_eq_fault (o : Res) (f : State → Res) (r : Fault) :
    andThen o f = .fault r ↔ o = .fault r ∨ ∃ u, o = .next u ∧ f u = .fault r := by
  cases o <;> simp

theorem andThen_assoc (o : Res) (f g : State → Res) :
    andThen (andThen o f) g = andThen o (fun s => andThen (f s) g) := by
  cases o <;> rfl

/-! ## `ep_configure` -/

/-- `ep_configure` completes exactly on halves that have an entry in the static table (rules R64, R142). -/
theorem epConfigure_eq_next (n : Fin 8) (type : EpType) (rx tx release : Option EpCallback) (s t : State) :
    epConfigure n type rx tx release s = .next t ↔
      n ≤ 2 ∧ (rx.isSome → (rxOffset n).isSome) ∧ (tx.isSome → (txOffset n).isSome)
        ∧ t = s.setEp n (configured type rx tx release) := by
  have hb (o : Option Nat) : o.isNone = true ↔ ¬ o.isSome = true := by cases o <;> simp
  unfold epConfigure
  simp only [hb]
  by_cases h : 2 < n ∨ (rx.isSome ∧ ¬ (rxOffset n).isSome) ∨ (tx.isSome ∧ ¬ (txOffset n).isSome)
  · rw [if_pos h]
    refine ⟨fun g => (nomatch g), fun ⟨hn, hr, ht, _⟩ => ?_⟩
    rcases h with h | ⟨a, b⟩ | ⟨a, b⟩
    · exact absurd h (Fin.not_lt.2 hn)
    · exact absurd (hr a) b
    · exact absurd (ht a) b
  · rw [if_neg h]
    simp only [not_or, not_and, not_not, Fin.not_lt] at h
    exact ⟨fun g => ⟨h.1, h.2.1, h.2.2, (Host.Outcome.next.inj g).symm⟩, fun ⟨_, _, _, g⟩ => g ▸ rfl⟩

/-- EP0 always has its buffers. -/
@[simp] theorem configureEp0_eq (s : State) :
    configureEp0 s = .next (s.setEp 0 (configured .control (some .ep0Engine) (some .ep0Engine) none)) := rfl

/-- Bulk-IN, configured without an RX callback, has its buffer (rule R225). -/
@[simp] theorem configureBulkIn_eq (s : State) :
    epConfigure 1 .bulk none (some .mscTx) (some .mscRelease) s
      = .next (s.setEp 1 (configured .bulk none (some .mscTx) (some .mscRelease))) := rfl

/-- Bulk-OUT, configured without a TX callback, has its buffer (rule R225). -/
@[simp] theorem configureBulkOut_eq (s : State) :
    epConfigure 2 .bulk (some .mscRx) none (some .mscRelease) s
      = .next (s.setEp 2 (configured .bulk (some .mscRx) none (some .mscRelease))) := rfl

/-! ## Packet memory and `send` -/

/-- The static transmit offsets (rule R64). -/
theorem txOffset_some (n : Fin 8) (off : Nat) (h : txOffset n = some off) :
    (n = 0 ∧ off = 0x80) ∨ (n = 1 ∧ off = 0x180) := by
  unfold txOffset at h
  split at h
  · simp at h; exact .inl ⟨by assumption, h.symm⟩
  · split at h
    · simp at h; exact .inr ⟨by assumption, h.symm⟩
    · simp at h

/-- The static receive offsets (rule R64). -/
theorem rxOffset_some (n : Fin 8) (off : Nat) (h : rxOffset n = some off) :
    (n = 0 ∧ off = 0x40) ∨ (n = 2 ∧ off = 0x100) := by
  unfold rxOffset at h
  split at h
  · simp at h; exact .inl ⟨by assumption, h.symm⟩
  · split at h
    · simp at h; exact .inr ⟨by assumption, h.symm⟩
    · simp at h

/-- The state `send` leaves. -/
def State.sent (s : State) (n : Fin 8) (off : Nat) (bytes : List Byte) : State :=
  { s.setHalf n .dIn { s.half n .dIn with state := .valid, count := bytes.length } with
    pma := Mem.write s.pma off (padWord bytes) }

/-- `send` completes exactly on a short packet, an idle half, and a buffer inside packet memory. -/
theorem send_eq_next (n : Fin 8) (bytes : List Byte) (s t : State) :
    send n bytes s = .next t ↔
      bytes.length ≤ 64 ∧ (s.half n .dIn).state = .nak ∧
        ∃ off, txOffset n = some off ∧ off + (padWord bytes).length ≤ s.cfg.pmaSize ∧ t = s.sent n off bytes := by
  unfold send
  split
  · simp; omega
  · split
    · simp_all
    · cases ho : txOffset n with
      | none => simp
      | some off =>
        have hal : ¬ off % 4 ≠ 0 := by rcases txOffset_some n off ho with ⟨_, rfl⟩ | ⟨_, rfl⟩ <;> decide
        simp only [pmaWrite, if_neg hal]
        split
        · simp; omega
        · simp only [andThen_next, Host.Outcome.next.injEq]
          constructor
          · rintro rfl
            exact ⟨by omega, by simp_all, off, rfl, by omega, rfl⟩
          · rintro ⟨_, _, off', h, _, rfl⟩
            cases h; rfl

/-- The three ways `send` can fail. -/
theorem send_eq_fault (n : Fin 8) (bytes : List Byte) (s : State) (f : Fault) (h : send n bytes s = .fault f) :
    (f = .sendTooLong ∧ 64 < bytes.length) ∨
      (f = .sendHalfNotIdle ∧ (s.half n .dIn).state ≠ .nak) ∨
      (f = .noStaticBufferForEndpoint ∧ txOffset n = none) ∨
      (f = .packetMemoryOutOfRange ∧ ∃ off, txOffset n = some off ∧ s.cfg.pmaSize < off + (padWord bytes).length) := by
  unfold send at h
  split at h
  · simp at h; exact .inl ⟨h.symm, by assumption⟩
  · split at h
    · simp at h; exact .inr (.inl ⟨h.symm, by assumption⟩)
    · cases ho : txOffset n with
      | none => simp [ho] at h; exact .inr (.inr (.inl ⟨h.symm, rfl⟩))
      | some off =>
        have hal : ¬ off % 4 ≠ 0 := by rcases txOffset_some n off ho with ⟨_, rfl⟩ | ⟨_, rfl⟩ <;> decide
        simp only [ho, pmaWrite, if_neg hal] at h
        split at h
        · simp at h; exact .inr (.inr (.inr ⟨h.symm, off, rfl, by assumption⟩))
        · simp at h

/-- `send` never refuses. -/
theorem send_ne_refused (n : Fin 8) (bytes : List Byte) (s : State) (r : Refusal) : send n bytes s ≠ .refused r := by
  unfold send
  split
  · simp
  · split
    · simp
    · cases ho : txOffset n with
      | none => simp
      | some off => simp only [pmaWrite]; split <;> [simp; (split <;> simp)]

@[simp] theorem sent_bot (s : State) (n : Fin 8) (off : Nat) (bytes : List Byte) : (s.sent n off bytes).bot = s.bot := rfl
@[simp] theorem sent_scsi (s : State) (n : Fin 8) (off : Nat) (bytes : List Byte) : (s.sent n off bytes).scsi = s.scsi := rfl
@[simp] theorem sent_cfg (s : State) (n : Fin 8) (off : Nat) (bytes : List Byte) : (s.sent n off bytes).cfg = s.cfg := rfl
@[simp] theorem sent_medium (s : State) (n : Fin 8) (off : Nat) (bytes : List Byte) :
    (s.sent n off bytes).medium = s.medium := rfl
@[simp] theorem sent_inputs (s : State) (n : Fin 8) (off : Nat) (bytes : List Byte) :
    (s.sent n off bytes).inputs = s.inputs := rfl
@[simp] theorem sent_pma (s : State) (n : Fin 8) (off : Nat) (bytes : List Byte) :
    (s.sent n off bytes).pma = Mem.write s.pma off (padWord bytes) := rfl
@[simp] theorem sent_half (s : State) (n m : Fin 8) (off : Nat) (bytes : List Byte) (d : Dir) :
    (s.sent n off bytes).half m d =
      if m = n ∧ d = .dIn then { s.half n .dIn with state := .valid, count := bytes.length } else s.half m d := by
  simp [State.sent]

/-- The packet `send` queued is what the buffer holds. -/
theorem sent_txBuf (s : State) (n : Fin 8) (off : Nat) (bytes : List Byte) (h : txOffset n = some off) :
    (s.sent n off bytes).txBuf n = bytes := by
  have : (s.sent n off bytes).half n .dIn = { s.half n .dIn with state := .valid, count := bytes.length } := by simp
  simp only [State.txBuf, h, this, sent_pma]
  exact readRange_write_padWord _ _ _

/-- A packet queued on another slot leaves a slot's buffer alone. -/
theorem sent_txBuf_other (s : State) (n m : Fin 8) (off : Nat) (bytes : List Byte) (hn : txOffset n = some off)
    (hl : bytes.length ≤ 64) (hc : (s.half m .dIn).count ≤ 64) (hm : m ≠ n) :
    (s.sent n off bytes).txBuf m = s.txBuf m := by
  have hh : (s.sent n off bytes).half m .dIn = s.half m .dIn := by simp [hm]
  simp only [State.txBuf, hh, sent_pma]
  cases ho : txOffset m with
  | none => rfl
  | some off' =>
    have hp := padWord_le bytes hl
    apply Mem.readRange_congr
    intro a h1 h2
    apply Mem.read_write_other
    rcases txOffset_some _ _ hn with ⟨rfl, rfl⟩ | ⟨rfl, rfl⟩ <;>
      rcases txOffset_some _ _ ho with ⟨rfl, rfl⟩ | ⟨rfl, rfl⟩ <;>
      first | exact absurd rfl hm | omega

/-- What `send` leaves is what the statements call queued. -/
theorem queued_sent (s : State) (n : Fin 8) (off : Nat) (bytes : List Byte) (h : txOffset n = some off)
    (hl : bytes.length ≤ 64) : Queued n bytes s (s.sent n off bytes) := by
  refine ⟨sent_txBuf s n off bytes h, ?_, rfl⟩
  intro off' h' a ha
  rw [h] at h'; cases h'
  have := padWord_le bytes hl
  exact Mem.read_write_other _ _ _ _ (by omega)

/-- EP0 answers with any packet of at most 64 bytes. -/
theorem send_ep0 (bytes : List Byte) (s : State) (h : s.ep0Ready) (hl : bytes.length ≤ 64) :
    send 0 bytes s = .next (s.sent 0 0x80 bytes) := by
  have := padWord_le bytes hl
  exact (send_eq_next _ _ _ _).2 ⟨hl, h.1, 0x80, rfl, by have := h.2; omega, rfl⟩

/-- Bulk-IN takes any packet of at most 64 bytes. -/
theorem send_bulkIn (bytes : List Byte) (s : State) (h : s.bulkInReady) (hl : bytes.length ≤ 64) :
    send 1 bytes s = .next (s.sent 1 0x180 bytes) := by
  have := padWord_le bytes hl
  exact (send_eq_next _ _ _ _).2 ⟨hl, h.1, 0x180, rfl, by have := h.2; omega, rfl⟩

/-- `ep0_reply` queues the answer, truncated to wLength. -/
theorem ep0Reply_queued (wLength : Word16) (bytes : List Byte) (s : State) (h : s.ep0Ready) (hl : bytes.length ≤ 64) :
    ∃ t, ep0Reply wLength bytes s = .next t ∧ Queued 0 (bytes.take wLength.toNat) s t :=
  ⟨_, send_ep0 _ _ h (by simp; omega), queued_sent _ _ _ _ rfl (by simp; omega)⟩

/-- `ep0_ack` queues the zero-length packet. -/
theorem ep0Ack_queued (s : State) (h : s.ep0Ready) : ∃ t, ep0Ack s = .next t ∧ Queued 0 [] s t :=
  ⟨_, send_ep0 _ _ h (by simp), queued_sent _ _ _ _ rfl (by simp)⟩

/-- `ep0_stall` is the entry of rule R351 and nothing else. -/
theorem ep0Stall_eq (s : State) : ep0Stall s = s.ep0Stalled := by
  simp [ep0Stall, State.ep0Stalled, epSetState, toggleAfter]

/-- What a CSW looks like has 13 bytes (rule R96). -/
@[simp] theorem encodeCsw_length (c : Csw) : (encodeCsw c).length = 13 := rfl

/-- What the sense record looks like has 18 bytes (rule R107). -/
@[simp] theorem encodeSense_length (c : Sense) : (encodeSense c).length = 18 := rfl

/-! ## Half states -/

/-- `ep_set_state` (rule R143). -/
@[simp] theorem epSetState_half (n m : Fin 8) (d d' : Dir) (v : HalfState) (s : State) :
    (epSetState n d v s).half m d' =
      if m = n ∧ d' = d then
        { s.half n d with state := v, toggle := toggleAfter n (s.half n d) v }
      else s.half m d' := by
  simp [epSetState]

/-- `ep_set_state` touches the endpoint table only. -/
theorem epSetState_frame (n : Fin 8) (d : Dir) (v : HalfState) (s : State) :
    (epSetState n d v s).bot = s.bot ∧ (epSetState n d v s).scsi = s.scsi ∧ (epSetState n d v s).pma = s.pma
      ∧ (epSetState n d v s).medium = s.medium ∧ (epSetState n d v s).inputs = s.inputs
      ∧ (epSetState n d v s).cfg = s.cfg :=
  ⟨rfl, rfl, rfl, rfl, rfl, rfl⟩

/-- `arm_out` (rule R238): a NAK half becomes VALID with its toggle kept, any other half stays. -/
theorem armOut_eq (s : State) :
    armOut s = if (s.half 2 .dOut).state = .nak then s.setHalf 2 .dOut { s.half 2 .dOut with state := .valid } else s := by
  unfold armOut
  split
  · rename_i h; simp [epSetState, toggleAfter, h]
  · rfl

/-! ## The end of a transaction -/

/-- `enter_await_csw` (rule R247) completes exactly when bulk-IN is idle and the CSW fits packet memory. -/
theorem enterAwaitCsw_eq_next (s t : State) :
    enterAwaitCsw s = .next t ↔
      (s.half 1 .dIn).state = .nak ∧ 0x190 ≤ s.cfg.pmaSize ∧
        t = (State.sent (scsiComplete s) 1 0x180 (encodeCsw s.bot.csw)).setPhase .awaitCsw := by
  have hl : (padWord (encodeCsw s.bot.csw)).length = 16 := by rw [padWord_length, encodeCsw_length]
  unfold enterAwaitCsw
  rw [andThen_eq_next]
  constructor
  · rintro ⟨u, hu, ht⟩
    obtain ⟨_, hnak, off, ho, hsz, rfl⟩ := (send_eq_next _ _ _ _).1 hu
    cases ho
    rw [hl, scsiComplete_cfg] at hsz
    simp only [Host.Outcome.next.injEq] at ht
    exact ⟨hnak, by omega, ht.symm⟩
  · rintro ⟨hnak, hsz, rfl⟩
    exact ⟨_, (send_eq_next _ _ _ _).2 ⟨by simp, hnak, 0x180, rfl, by rw [hl]; exact hsz, rfl⟩, rfl⟩

/-- `enter_await_csw` when bulk-IN is ready. -/
theorem enterAwaitCsw_ready (s : State) (h : s.bulkInReady) :
    enterAwaitCsw s = .next ((State.sent (scsiComplete s) 1 0x180 (encodeCsw s.bot.csw)).setPhase .awaitCsw) :=
  (enterAwaitCsw_eq_next _ _).2 ⟨h.1, by have := h.2; omega, rfl⟩

/-- `enter_await_csw` leaves the CSW queued. -/
theorem enterAwaitCsw_queued (s : State) (h : s.bulkInReady) : ∃ t, enterAwaitCsw s = .next t ∧ CswQueued s t := by
  refine ⟨_, enterAwaitCsw_ready s h, ?_⟩
  obtain ⟨h1, h2, h3⟩ := queued_sent (scsiComplete s) 1 0x180 (encodeCsw s.bot.csw) rfl (by simp)
  refine ⟨?_, ?_, ?_⟩
  · exact h1
  · exact h2
  · exact congrArg (fun u => State.setPhase u .awaitCsw) h3

/-- `bot_stall` is the entry of rule R246 and nothing else. -/
theorem botStall_eq (d : Dir) (s : State) : botStall d s = s.bulkStalled d := by
  cases d <;> simp [botStall, State.bulkStalled, epSetState, toggleAfter, bulkSlot, State.setPhase]

/-- `arm_out` in the terms of the statements. -/
theorem armOut_outArmed (s : State) : armOut s = s.outArmed := by
  rw [armOut_eq, State.outArmed]
  split
  · rfl
  · have : (s.ep 2).withHalf .dOut (s.half 2 .dOut) = s.ep 2 := rfl
    exact (congrArg (s.setEp 2) this |>.trans (s.setEp_self 2)).symm

/-- `send_fragment` leaves the next fragment queued. -/
theorem sendFragment_queued (s : State) (h : s.bulkInReady) : ∃ t, sendFragment s = .next t ∧ FragmentQueued s t :=
  ⟨_, send_bulkIn _ s h (by simp [fragmentLen]), queued_sent s 1 0x180 _ rfl (by simp)⟩

/-! ## The LUN oracle -/

/-- A LUN call touches the medium agent's record only. -/
theorem lunCall_frame (c : LunCall) (s : State) : ∃ m, (lunCall c s).2 = { s with medium := m } := by
  unfold lunCall; split
  · exact ⟨_, rfl⟩
  · exact ⟨_, rfl⟩

/-- A LUN call is recorded. -/
theorem lunCall_recorded (c : LunCall) (s : State) : (lunCall c s).2.medium.calls = s.medium.calls ++ [c] := by
  unfold lunCall; split <;> rfl

/-! ## SCSI chunks -/

/-- What `reply` leaves is what the statements call replied. -/
theorem replied_reply (bytes : List Byte) (s : State) (h : bytes.length ≤ 512) : Replied 1 bytes s (reply bytes s) := by
  have e : bytes.take 512 = bytes := List.take_of_length_le h
  refine ⟨?_, ?_, ?_, rfl⟩
  · simp [reply, putChunk, State.ret]; omega
  · simp only [reply, putChunk, State.ret, e]; exact Mem.readRange_write _ _ _
  · intro a ha
    simp only [reply, putChunk, State.ret, e]
    exact Mem.read_write_other _ _ _ _ (by omega)

/-- What `raise CommandFailed` leaves. -/
theorem commandFailed_eq (key : BitVec 4) (asc ascq : Byte) (code : Int) (s : State) :
    commandFailed key asc ascq code s = s.failed key asc ascq code := rfl

/-! ## Drivers -/

@[simp] theorem forDrivers_nil (f : Driver → State → Res) (s : State) : forDrivers f [] s = .next s := rfl

@[simp] theorem forDrivers_none (f : Driver → State → Res) (ds : List (Option Driver)) (s : State) :
    forDrivers f (none :: ds) s = forDrivers f ds s := rfl

@[simp] theorem forDrivers_some (f : Driver → State → Res) (d : Driver) (ds : List (Option Driver)) (s : State) :
    forDrivers f (some d :: ds) s = andThen (f d s) (forDrivers f ds) := rfl

/-- A property every callback keeps is kept by calling all of them. -/
theorem forDrivers_keeps (P : State → Prop) (f : Driver → State → Res)
    (hf : ∀ d s t, P s → f d s = .next t → P t) (ds : List (Option Driver)) :
    ∀ s t, P s → forDrivers f ds s = .next t → P t := by
  induction ds with
  | nil => intro s t hs h; simp at h; exact h ▸ hs
  | cons o ds ih =>
    intro s t hs h
    cases o with
    | none => exact ih s t hs h
    | some d =>
      rw [forDrivers_some, andThen_eq_next] at h
      obtain ⟨u, hu, ht⟩ := h
      exact ih u t (hf d s u hs hu) ht

/-- Where every callback keeps a property, a fault of calling all of them is a fault of one of them. -/
theorem forDrivers_fault (P : State → Prop) (f : Driver → State → Res) (r : Fault)
    (hf : ∀ d s t, P s → f d s = .next t → P t) (ds : List (Option Driver)) :
    ∀ s, P s → forDrivers f ds s = .fault r → ∃ d u, P u ∧ f d u = .fault r := by
  induction ds with
  | nil => intro s _ h; simp at h
  | cons o ds ih =>
    intro s hs h
    cases o with
    | none => exact ih s hs h
    | some d =>
      rw [forDrivers_some, andThen_eq_fault] at h
      rcases h with h | ⟨u, hu, h⟩
      · exact ⟨d, s, hs, h⟩
      · exact ih u (hf d s u hs hu) h

end Sys2Proof.Machine
end

