-- ==== Sys2Proof/Laws/PerInstr.lean ====
section
/-! SUPPORT. Per instruction: how many bytes its encoding has. -/

namespace Sys2Proof.Laws.EncodeLength

/-- A well-formed instruction's encoding has its format's length: 8 bytes for a SETUP (rule R91), 16 for a command
block (rule R94), 31 for a CBW (rule R94), at most 64 for any other bulk-OUT packet (rule R14). -/
def Statement (i : Instr) : Prop :=
  i.wf = true →
    match i.format with
    | .cdb => (encode i).length = 16
    | .bulkOut => (encode i).length ≤ 64 ∧ (∀ c, i = .cbw c → (encode i).length = 31)
    | .setup => (encode i).length = 8
    | .msc => (encode i).length = 8
    | .getDescriptor => (encode i).length = 8
    | .getStatus => (encode i).length = 8
    | .clearFeature => (encode i).length = 8
    | .setFeature => (encode i).length = 8

theorem getStatus (rcp : BitVec 5) (a : SetupArgs) : Statement (.getStatus rcp a) := fun _ => rfl

theorem getDescriptor (rcp : BitVec 5) (a : SetupArgs) : Statement (.getDescriptor rcp a) := fun _ => rfl

theorem getConfiguration (rcp : BitVec 5) (a : SetupArgs) : Statement (.getConfiguration rcp a) := fun _ => rfl

theorem getInterface (rcp : BitVec 5) (a : SetupArgs) : Statement (.getInterface rcp a) := fun _ => rfl

theorem clearFeature (rcp : BitVec 5) (a : SetupArgs) : Statement (.clearFeature rcp a) := fun _ => rfl

theorem setFeature (rcp : BitVec 5) (a : SetupArgs) : Statement (.setFeature rcp a) := fun _ => rfl

theorem setAddress (rcp : BitVec 5) (a : SetupArgs) : Statement (.setAddress rcp a) := fun _ => rfl

theorem setDescriptor (rcp : BitVec 5) (a : SetupArgs) : Statement (.setDescriptor rcp a) := fun _ => rfl

theorem setConfiguration (rcp : BitVec 5) (a : SetupArgs) : Statement (.setConfiguration rcp a) := fun _ => rfl

theorem setInterface (rcp : BitVec 5) (a : SetupArgs) : Statement (.setInterface rcp a) := fun _ => rfl

theorem ctrlDelegateClass (dir : BitVec 1) (rq : Byte) (a : SetupArgs) :
    Statement (.ctrlDelegateClass dir rq a) := fun _ => rfl

theorem ctrlDelegateVendor (dir : BitVec 1) (rq : Byte) (a : SetupArgs) :
    Statement (.ctrlDelegateVendor dir rq a) := fun _ => rfl

theorem ctrlDelegateReserved (dir : BitVec 1) (rq : Byte) (a : SetupArgs) :
    Statement (.ctrlDelegateReserved dir rq a) := fun _ => rfl

theorem setupDefault (bm rq : Byte) (a : SetupArgs) : Statement (.setupDefault bm rq a) := fun _ => rfl

theorem getMaxLun (a : SetupArgs) : Statement (.getMaxLun a) := fun _ => rfl

theorem bulkOnlyReset (a : SetupArgs) : Statement (.bulkOnlyReset a) := fun _ => rfl

theorem mscDefault (bm rq : Byte) (a : SetupArgs) : Statement (.mscDefault bm rq a) := fun _ => rfl

theorem getDescriptorDevice (rcp : BitVec 5) (index : Byte) (wIndex wLength : Word16) :
    Statement (.getDescriptorDevice rcp index wIndex wLength) := fun _ => rfl

theorem getDescriptorConfiguration (rcp : BitVec 5) (index : Byte) (wIndex wLength : Word16) :
    Statement (.getDescriptorConfiguration rcp index wIndex wLength) := fun _ => rfl

theorem getDescriptorString (rcp : BitVec 5) (index : Byte) (wIndex wLength : Word16) :
    Statement (.getDescriptorString rcp index wIndex wLength) := fun _ => rfl

theorem getDescriptorDeviceQualifier (rcp : BitVec 5) (index : Byte) (wIndex wLength : Word16) :
    Statement (.getDescriptorDeviceQualifier rcp index wIndex wLength) := fun _ => rfl

theorem getDescriptorDefault (rcp : BitVec 5) (type index : Byte) (wIndex wLength : Word16) :
    Statement (.getDescriptorDefault rcp type index wIndex wLength) := fun _ => rfl

theorem getStatusDevice (a : SetupArgs) : Statement (.getStatusDevice a) := fun _ => rfl

theorem getStatusInterface (a : SetupArgs) : Statement (.getStatusInterface a) := fun _ => rfl

theorem getStatusEndpoint (a : SetupArgs) : Statement (.getStatusEndpoint a) := fun _ => rfl

theorem getStatusDefault (rcp : BitVec 5) (a : SetupArgs) : Statement (.getStatusDefault rcp a) := fun _ => rfl

theorem clearFeatureDevice (a : SetupArgs) : Statement (.clearFeatureDevice a) := fun _ => rfl

theorem clearFeatureEndpoint (a : SetupArgs) : Statement (.clearFeatureEndpoint a) := fun _ => rfl

theorem clearFeatureDefault (rcp : BitVec 5) (a : SetupArgs) : Statement (.clearFeatureDefault rcp a) := fun _ => rfl

theorem setFeatureDevice (a : SetupArgs) : Statement (.setFeatureDevice a) := fun _ => rfl

theorem setFeatureEndpoint (a : SetupArgs) : Statement (.setFeatureEndpoint a) := fun _ => rfl

theorem setFeatureDefault (rcp : BitVec 5) (a : SetupArgs) : Statement (.setFeatureDefault rcp a) := fun _ => rfl

theorem cbw (c : Cbw) : Statement (.cbw c) := by
  intro h
  simp [Instr.wf] at h
  simp [Instr.format, encode, encodeCbw, putLe32, h]

theorem bulkOutDefault (p : List Byte) : Statement (.bulkOutDefault p) := by
  intro h
  simp [Instr.wf] at h
  simp [Instr.format, encode, h]

theorem testUnitReady : Statement .testUnitReady := fun _ => rfl

theorem requestSense : Statement .requestSense := fun _ => rfl

theorem inquiry (reserved : BitVec 7) (evpd : BitVec 1) (page : Byte) :
    Statement (.inquiry reserved evpd page) := fun _ => rfl

theorem modeSense6 : Statement .modeSense6 := fun _ => rfl

theorem startStopUnit : Statement .startStopUnit := fun _ => rfl

theorem preventAllowMediumRemoval : Statement .preventAllowMediumRemoval := fun _ => rfl

theorem readFormatCapacities : Statement .readFormatCapacities := fun _ => rfl

theorem readCapacity10 : Statement .readCapacity10 := fun _ => rfl

theorem read10 (lba : Word32) (n : Word16) : Statement (.read10 lba n) := fun _ => rfl

theorem write10 (lba : Word32) (n : Word16) : Statement (.write10 lba n) := fun _ => rfl

theorem writeBuffer : Statement .writeBuffer := fun _ => rfl

theorem readBuffer : Statement .readBuffer := fun _ => rfl

theorem vendor (cb : List Byte) : Statement (.vendor cb) := by
  intro h
  simp [Instr.wf] at h
  simp [Instr.format, encode, h]

theorem cdbDefault (op : Byte) : Statement (.cdbDefault op) := fun _ => rfl

end Sys2Proof.Laws.EncodeLength
end

