-- ==== Sys2Proof/Tests/Slice0.lean ====
section
/-! SUPPORT. Tests of single decodes and single steps, each with its expected result from the spec's rules or from the
vectors of 95_test_vectors.md, and for every statement with hypotheses a witness that meets them. -/

namespace Sys2Proof.Tests

open Sys2Proof.Machine

/-! ## Helpers -/

/-- Bytes written as numbers. -/
def bytes (l : List Nat) : List Byte := l.map (BitVec.ofNat 8)

/-- EP0 as `start()` leaves it (rule R141). -/
def ep0 : Endpoint := ⟨.control, ⟨.valid, false, 0⟩, ⟨.nak, false, 0⟩, some .ep0Engine, some .ep0Engine, none⟩

/-- Bulk-IN configured and idle (rule R225). -/
def bulkIn : Endpoint := ⟨.bulk, ⟨.disabled, false, 0⟩, ⟨.nak, false, 0⟩, none, some .mscTx, some .mscRelease⟩

/-- Bulk-OUT configured and armed (rule R225). -/
def bulkOut : Endpoint := ⟨.bulk, ⟨.valid, false, 0⟩, ⟨.disabled, false, 0⟩, some .mscRx, none, some .mscRelease⟩

/-- State Sc of 95_test_vectors.md section 0: configured, idle, address 7. -/
def sc : State :=
  { State.reset with
    usb :=
      { enumState := .configured, devAddress := 7#7, pendingAddress := none, configValue := 1#8, pullup := true,
        ep := (((Vector.replicate 8 Endpoint.off).set 0 ep0).set 1 bulkIn).set 2 bulkOut,
        setup := ⟨0x00#8, 0x09#8, 1#16, 0#16, 0#16⟩, ifdrv := [some Driver.msc] } }

/-- A CBW of the vectors: tag, length, flags, LUN 0, command length, command block. -/
def cbwOf (tag dtl flags len : Nat) (cb : List Nat) : Cbw :=
  ⟨0x43425355#32, BitVec.ofNat 32 tag, BitVec.ofNat 32 dtl, BitVec.ofNat 8 flags, 0#8, BitVec.ofNat 8 len,
    bytes (cb ++ List.replicate (16 - cb.length) 0)⟩

/-- `s` with a bulk-OUT packet received and not yet served, and a Tick to come. -/
def waiting (p : List Byte) (s : State) : State :=
  { s.setHalf 2 .dOut ⟨.nak, true, p.length⟩ with
    pma := Mem.write s.pma 0x100 p, inputs := [.tick], bot := { s.bot with rxFlag := true } }

/-- `s` in DATA_OUT for the CBW, with a chunk of 512 bytes wanted, `off` of it received, `residue` outstanding. -/
def dataOut (c : Cbw) (len off residue : Nat) (s : State) : State :=
  { s with bot := { s.bot with
      phase := .dataOut, cbw := c, csw := ⟨c.tag, BitVec.ofNat 32 residue, 0#8⟩, dataLen := BitVec.ofNat 32 len,
      dataOffset := BitVec.ofNat 32 off } }

/-- `s` in DATA_IN with a fragment of `n` bytes taken by the host, the chunk `len` bytes long. -/
def dataIn (c : Cbw) (len off residue n : Nat) (more : Bool) (s : State) : State :=
  { s.setHalf 1 .dIn ⟨.nak, true, n⟩ with bot := { s.bot with
      phase := .dataIn, cbw := c, csw := ⟨c.tag, BitVec.ofNat 32 residue, 0#8⟩, dataLen := BitVec.ofNat 32 len,
      dataOffset := BitVec.ofNat 32 off, moreData := more } }

/-- `s` with the medium's next answers. -/
def answering (l : List Bool) (s : State) : State :=
  { s with medium := { s.medium with
      answers := l.map fun ok => ⟨ok, Vector.replicate 512 0xAB#8, ⟨0, [], 0#32, none⟩⟩ } }

/-- `s` with the LUN's state, capacity, write protection and vendor callback. -/
def withLunRecord (l : Lun) (s : State) : State := { s with scsi := { s.scsi with lun := [l] } }

/-- The outcome is a next state with this property. -/
def nextSat (o : Res) (f : State → Bool) : Bool :=
  match o with
  | .next t => f t
  | .fault _ => false
  | .refused _ => false

/-- The outcome is this fault. -/
def faults (o : Res) (r : Fault) : Bool :=
  match o with
  | .next _ => false
  | .fault q => q == r
  | .refused _ => false

/-- What the host reads on EP0 after a SETUP packet in Sc. -/
def replies (p : List Nat) (a : BusAnswer) : Bool :=
  nextSat (step { sc with inputs := [.rxSetup (bytes p)] }) fun t => answerIn 7#7 0 t == a

/-- A SETUP packet in Sc is acknowledged and leaves a property. -/
def acked (p : List Nat) (f : State → Bool) : Bool :=
  nextSat (step { sc with inputs := [.rxSetup (bytes p)] }) fun t => answerIn 7#7 0 t == .data [] && f t

/-- A command answers these bytes with code 1. -/
def delivers (i : Instr) (s : State) (b : List Nat) : Bool :=
  nextSat (exec i s) fun t =>
    t.scsi.code == 1 && Mem.readRange t.bot.dataBuf 0 t.bot.dataLen.toNat == bytes b

/-- A command fails with this sense and code. -/
def fails (i : Instr) (s : State) (key asc ascq : Nat) (code : Int) : Bool :=
  nextSat (exec i s) fun t =>
    t.scsi.code == code && t.scsi.sense.key == BitVec.ofNat 4 key && t.scsi.sense.asc == BitVec.ofNat 8 asc
      && t.scsi.sense.ascq == BitVec.ofNat 8 ascq

/-! ## Ill-formed terms, one per check of WellFormed -/

theorem test_wf_setup_default_takes_no_row : (Instr.setupDefault 0x80#8 0x06#8 default).wf = false := by decide
theorem test_wf_setup_default_takes_no_out_row : (Instr.setupDefault 0x00#8 0x09#8 default).wf = false := by decide
theorem test_wf_setup_default_takes_no_delegated : (Instr.setupDefault 0xA1#8 0x00#8 default).wf = false := by decide
theorem test_wf_msc_default_takes_no_max_lun : (Instr.mscDefault 0xA1#8 0xFE#8 default).wf = false := by decide
theorem test_wf_msc_default_takes_no_reset : (Instr.mscDefault 0x21#8 0xFF#8 default).wf = false := by decide
theorem test_wf_msc_default_is_delegated : (Instr.mscDefault 0x22#8 0x00#8 default).wf = false := by decide
theorem test_wf_descriptor_default : (Instr.getDescriptorDefault 0#5 0x03#8 0#8 0#16 0#16).wf = false := by decide
theorem test_wf_status_default : (Instr.getStatusDefault 2#5 default).wf = false := by decide
theorem test_wf_clear_feature_default : (Instr.clearFeatureDefault 0#5 default).wf = false := by decide
theorem test_wf_set_feature_default : (Instr.setFeatureDefault 2#5 default).wf = false := by decide
theorem test_wf_cbw_signature : (Instr.cbw { cbwOf 1 0 0 6 [] with signature := 0x44425355#32 }).wf = false := by decide
theorem test_wf_cbw_lun : (Instr.cbw { cbwOf 1 0 0 6 [] with lun := 0x10#8 }).wf = false := by decide
theorem test_wf_cbw_block : (Instr.cbw { cbwOf 1 0 0 6 [] with cb := [0#8] }).wf = false := by decide
theorem test_wf_packet_length : (Instr.bulkOutDefault (List.replicate 65 0#8)).wf = false := by decide
theorem test_wf_packet_is_no_cbw :
    (Instr.bulkOutDefault (bytes [0x55, 0x53, 0x42, 0x43] ++ List.replicate 27 0#8)).wf = false := by decide
theorem test_wf_vendor_length : (Instr.vendor [0xC0#8]).wf = false := by decide
theorem test_wf_vendor_group : (Instr.vendor (List.replicate 16 0xA8#8)).wf = false := by decide
theorem test_wf_cdb_default : (Instr.cdbDefault 0x28#8).wf = false := by decide
theorem test_wf_cdb_default_vendor : (Instr.cdbDefault 0xC5#8).wf = false := by decide

/-! ## Decoding: a word of every constructor, from rules R91 to R115 and 95_test_vectors.md sections 2.1 to 2.8 -/

theorem test_decode_getStatus :
    decodeAs .setup (bytes [0x82, 0x00, 0x00, 0x00, 0x81, 0x00, 0x02, 0x00]) = .ok (.getStatus 2#5 ⟨0#16, 0x81#16, 2#16⟩) := by
  decide
theorem test_decode_getDescriptor :
    decodeAs .setup (bytes [0x80, 0x06, 0x01, 0x03, 0x09, 0x04, 0xFF, 0x00])
      = .ok (.getDescriptor 0#5 ⟨0x0301#16, 0x0409#16, 255#16⟩) := by decide
theorem test_decode_getConfiguration :
    decodeAs .setup (bytes [0x80, 0x08, 0x00, 0x00, 0x00, 0x00, 0x01, 0x00]) = .ok (.getConfiguration 0#5 ⟨0#16, 0#16, 1#16⟩) := by
  decide
theorem test_decode_getInterface :
    decodeAs .setup (bytes [0x81, 0x0A, 0x00, 0x00, 0x01, 0x00, 0x01, 0x00]) = .ok (.getInterface 1#5 ⟨0#16, 1#16, 1#16⟩) := by
  decide
theorem test_decode_clearFeature :
    decodeAs .setup (bytes [0x02, 0x01, 0x00, 0x00, 0x81, 0x00, 0x00, 0x00]) = .ok (.clearFeature 2#5 ⟨0#16, 0x81#16, 0#16⟩) := by
  decide
theorem test_decode_setFeature :
    decodeAs .setup (bytes [0x02, 0x03, 0x01, 0x00, 0x02, 0x00, 0x00, 0x00]) = .ok (.setFeature 2#5 ⟨1#16, 2#16, 0#16⟩) := by
  decide
theorem test_decode_setAddress :
    decodeAs .setup (bytes [0x00, 0x05, 0x2A, 0x00, 0x00, 0x00, 0x00, 0x00]) = .ok (.setAddress 0#5 ⟨42#16, 0#16, 0#16⟩) := by
  decide
theorem test_decode_setDescriptor :
    decodeAs .setup (bytes [0x00, 0x07, 0x00, 0x01, 0x00, 0x00, 0x12, 0x00])
      = .ok (.setDescriptor 0#5 ⟨0x0100#16, 0#16, 18#16⟩) := by decide
theorem test_decode_setConfiguration :
    decodeAs .setup (bytes [0x00, 0x09, 0x05, 0x00, 0x00, 0x00, 0x00, 0x00])
      = .ok (.setConfiguration 0#5 ⟨5#16, 0#16, 0#16⟩) := by decide
theorem test_decode_setInterface :
    decodeAs .setup (bytes [0x01, 0x0B, 0x01, 0x00, 0x00, 0x00, 0x00, 0x00]) = .ok (.setInterface 1#5 ⟨1#16, 0#16, 0#16⟩) := by
  decide
theorem test_decode_ctrlDelegateClass :
    decodeAs .setup (bytes [0xA1, 0xFE, 0x00, 0x00, 0x00, 0x00, 0x01, 0x00])
      = .ok (.ctrlDelegateClass 1#1 0xFE#8 ⟨0#16, 0#16, 1#16⟩) := by decide
theorem test_decode_ctrlDelegateVendor :
    decodeAs .setup (bytes [0x41, 0x05, 0x00, 0x00, 0x00, 0x00, 0x00, 0x00])
      = .ok (.ctrlDelegateVendor 0#1 0x05#8 ⟨0#16, 0#16, 0#16⟩) := by decide
theorem test_decode_ctrlDelegateReserved :
    decodeAs .setup (bytes [0xE1, 0x0A, 0x00, 0x00, 0x00, 0x00, 0x01, 0x00])
      = .ok (.ctrlDelegateReserved 1#1 0x0A#8 ⟨0#16, 0#16, 1#16⟩) := by decide
theorem test_decode_setupDefault :
    decodeAs .setup (bytes [0x60, 0x09, 0x01, 0x00, 0x00, 0x00, 0x00, 0x00])
      = .ok (.setupDefault 0x60#8 0x09#8 ⟨1#16, 0#16, 0#16⟩) := by decide
theorem test_decode_getMaxLun :
    decodeAs .msc (bytes [0xA1, 0xFE, 0x34, 0x12, 0x00, 0x00, 0x01, 0x00]) = .ok (.getMaxLun ⟨0x1234#16, 0#16, 1#16⟩) := by
  decide
theorem test_decode_bulkOnlyReset :
    decodeAs .msc (bytes [0x21, 0xFF, 0x00, 0x00, 0x01, 0x00, 0x00, 0x00]) = .ok (.bulkOnlyReset ⟨0#16, 1#16, 0#16⟩) := by
  decide
theorem test_decode_mscDefault :
    decodeAs .msc (bytes [0xA1, 0xFF, 0x00, 0x00, 0x00, 0x00, 0x00, 0x00])
      = .ok (.mscDefault 0xA1#8 0xFF#8 ⟨0#16, 0#16, 0#16⟩) := by decide
theorem test_decode_getDescriptorDevice :
    decodeAs .getDescriptor (bytes [0x80, 0x06, 0x05, 0x01, 0x00, 0x00, 0x12, 0x00])
      = .ok (.getDescriptorDevice 0#5 5#8 0#16 18#16) := by decide
theorem test_decode_getDescriptorConfiguration :
    decodeAs .getDescriptor (bytes [0x80, 0x06, 0x00, 0x02, 0x00, 0x00, 0x09, 0x00])
      = .ok (.getDescriptorConfiguration 0#5 0#8 0#16 9#16) := by decide
theorem test_decode_getDescriptorString :
    decodeAs .getDescriptor (bytes [0x80, 0x06, 0x02, 0x03, 0x09, 0x04, 0xFF, 0x00])
      = .ok (.getDescriptorString 0#5 2#8 0x0409#16 255#16) := by decide
theorem test_decode_getDescriptorDeviceQualifier :
    decodeAs .getDescriptor (bytes [0x80, 0x06, 0x00, 0x06, 0x00, 0x00, 0x0A, 0x00])
      = .ok (.getDescriptorDeviceQualifier 0#5 0#8 0#16 10#16) := by decide
theorem test_decode_getDescriptorDefault :
    decodeAs .getDescriptor (bytes [0x80, 0x06, 0x00, 0x0F, 0x00, 0x00, 0x05, 0x00])
      = .ok (.getDescriptorDefault 0#5 0x0F#8 0#8 0#16 5#16) := by decide
theorem test_decode_getStatusDevice :
    decodeAs .getStatus (bytes [0x80, 0x00, 0x00, 0x00, 0x00, 0x00, 0x02, 0x00]) = .ok (.getStatusDevice ⟨0#16, 0#16, 2#16⟩) := by
  decide
theorem test_decode_getStatusInterface :
    decodeAs .getStatus (bytes [0x81, 0x00, 0x00, 0x00, 0x00, 0x00, 0x02, 0x00])
      = .ok (.getStatusInterface ⟨0#16, 0#16, 2#16⟩) := by decide
theorem test_decode_getStatusEndpoint :
    decodeAs .getStatus (bytes [0x82, 0x00, 0x00, 0x00, 0x02, 0x00, 0x02, 0x00])
      = .ok (.getStatusEndpoint ⟨0#16, 2#16, 2#16⟩) := by decide
theorem test_decode_getStatusDefault :
    decodeAs .getStatus (bytes [0x9F, 0x00, 0x00, 0x00, 0x00, 0x00, 0x02, 0x00])
      = .ok (.getStatusDefault 31#5 ⟨0#16, 0#16, 2#16⟩) := by decide
theorem test_decode_clearFeatureDevice :
    decodeAs .clearFeature (bytes [0x00, 0x01, 0x01, 0x00, 0x00, 0x00, 0x00, 0x00])
      = .ok (.clearFeatureDevice ⟨1#16, 0#16, 0#16⟩) := by decide
theorem test_decode_clearFeatureEndpoint :
    decodeAs .clearFeature (bytes [0x02, 0x01, 0x00, 0x00, 0x02, 0x00, 0x00, 0x00])
      = .ok (.clearFeatureEndpoint ⟨0#16, 2#16, 0#16⟩) := by decide
theorem test_decode_clearFeatureDefault :
    decodeAs .clearFeature (bytes [0x01, 0x01, 0x00, 0x00, 0x00, 0x00, 0x00, 0x00])
      = .ok (.clearFeatureDefault 1#5 ⟨0#16, 0#16, 0#16⟩) := by decide
theorem test_decode_setFeatureDevice :
    decodeAs .setFeature (bytes [0x00, 0x03, 0x01, 0x00, 0x00, 0x00, 0x00, 0x00])
      = .ok (.setFeatureDevice ⟨1#16, 0#16, 0#16⟩) := by decide
theorem test_decode_setFeatureEndpoint :
    decodeAs .setFeature (bytes [0x02, 0x03, 0x00, 0x00, 0x81, 0x00, 0x00, 0x00])
      = .ok (.setFeatureEndpoint ⟨0#16, 0x81#16, 0#16⟩) := by decide
theorem test_decode_setFeatureDefault :
    decodeAs .setFeature (bytes [0x01, 0x03, 0x00, 0x00, 0x00, 0x00, 0x00, 0x00])
      = .ok (.setFeatureDefault 1#5 ⟨0#16, 0#16, 0#16⟩) := by decide
theorem test_decode_cbw :
    decodeAs .bulkOut (bytes [0x55, 0x53, 0x42, 0x43, 0x06, 0x00, 0xBE, 0xBA, 0x08, 0x00, 0x00, 0x00, 0x80, 0x00, 0x0A,
      0x25, 0, 0, 0, 0, 0, 0, 0, 0, 0, 0, 0, 0, 0, 0, 0]) = .ok (.cbw (cbwOf 0xBABE0006 8 0x80 10 [0x25])) := by decide
theorem test_decode_cbw_lun_high_bits :
    decodeAs .bulkOut (bytes [0x55, 0x53, 0x42, 0x43, 0x01, 0x00, 0x00, 0x00, 0x00, 0x02, 0x00, 0x00, 0x00, 0xF3, 0x0A,
      0x2A, 0, 0, 0, 0, 0, 0, 0, 1, 0, 0, 0, 0, 0, 0, 0])
      = .ok (.cbw { cbwOf 1 512 0 10 [0x2A, 0, 0, 0, 0, 0, 0, 0, 1] with lun := 3#8 }) := by decide
theorem test_decode_bulkOutDefault :
    decodeAs .bulkOut (bytes [0x55, 0x53, 0x42, 0x43]) = .ok (.bulkOutDefault (bytes [0x55, 0x53, 0x42, 0x43])) := by decide
theorem test_decode_bulkOutDefault_signature :
    decodeAs .bulkOut (bytes ([0x55, 0x53, 0x42, 0x44] ++ List.replicate 27 0))
      = .ok (.bulkOutDefault (bytes ([0x55, 0x53, 0x42, 0x44] ++ List.replicate 27 0))) := by decide
theorem test_decode_testUnitReady : decodeAs .cdb (bytes (List.replicate 16 0)) = .ok .testUnitReady := by decide
theorem test_decode_requestSense :
    decodeAs .cdb (bytes ([0x03, 0, 0, 0, 0x12] ++ List.replicate 11 0)) = .ok .requestSense := by decide
theorem test_decode_inquiry :
    decodeAs .cdb (bytes ([0x12, 0x01, 0x83, 0x00, 0xFF] ++ List.replicate 11 0)) = .ok (.inquiry 0#7 1#1 0x83#8) := by decide
theorem test_decode_inquiry_reserved :
    decodeAs .cdb (bytes ([0x12, 0x02, 0x00, 0x00, 0x24] ++ List.replicate 11 0)) = .ok (.inquiry 1#7 0#1 0x00#8) := by decide
theorem test_decode_modeSense6 :
    decodeAs .cdb (bytes ([0x1A, 0x08, 0x08, 0x00, 0xFF] ++ List.replicate 11 0)) = .ok .modeSense6 := by decide
theorem test_decode_startStopUnit :
    decodeAs .cdb (bytes ([0x1B, 0, 0, 0, 0x02] ++ List.replicate 11 0)) = .ok .startStopUnit := by decide
theorem test_decode_preventAllowMediumRemoval :
    decodeAs .cdb (bytes ([0x1E, 0, 0, 0, 0x01] ++ List.replicate 11 0)) = .ok .preventAllowMediumRemoval := by decide
theorem test_decode_readFormatCapacities :
    decodeAs .cdb (bytes ([0x23] ++ List.replicate 15 0)) = .ok .readFormatCapacities := by decide
theorem test_decode_readCapacity10 :
    decodeAs .cdb (bytes ([0x25] ++ List.replicate 15 0)) = .ok .readCapacity10 := by decide
theorem test_decode_read10 :
    decodeAs .cdb (bytes ([0x28, 0x00, 0x00, 0x00, 0x3F, 0xFF, 0x00, 0x00, 0x01, 0x00] ++ List.replicate 6 0))
      = .ok (.read10 0x3FFF#32 1#16) := by decide
theorem test_decode_write10 :
    decodeAs .cdb (bytes ([0x2A, 0x00, 0x12, 0x34, 0x56, 0x78, 0x00, 0x01, 0x02, 0x00] ++ List.replicate 6 0))
      = .ok (.write10 0x12345678#32 258#16) := by decide
theorem test_decode_writeBuffer : decodeAs .cdb (bytes ([0x3B] ++ List.replicate 15 0)) = .ok .writeBuffer := by decide
theorem test_decode_readBuffer : decodeAs .cdb (bytes ([0x3C] ++ List.replicate 15 0)) = .ok .readBuffer := by decide
theorem test_decode_vendor :
    decodeAs .cdb (bytes ([0xC5, 7] ++ List.replicate 14 0)) = .ok (.vendor (bytes ([0xC5, 7] ++ List.replicate 14 0))) := by
  decide
theorem test_decode_cdbDefault : decodeAs .cdb (bytes ([0x88] ++ List.replicate 15 0)) = .ok (.cdbDefault 0x88#8) := by decide

/-! What a decoder refuses. -/

theorem test_decode_short_setup : decodeAs .setup (bytes [0x80, 0x06]) = .error (.wrongLength .setup) := by decide
theorem test_decode_wrong_level :
    decodeAs .getStatus (bytes [0x80, 0x06, 0, 1, 0, 0, 0x12, 0]) = .error (.wrongFirstLevel .getStatus) := by decide

/-! The opcode table's words: its numbering puts the first byte lowest. -/

theorem test_table_word_descriptor : decodeTableWord 16 0x0680 = some (.getDescriptor 0#5 ⟨0#16, 0#16, 0#16⟩) := by decide
theorem test_table_word_inquiry : decodeTableWord 8 0x12 = some (.inquiry 0#7 0#1 0#8) := by decide
theorem test_fetch_word_runs :
    nextSat (step (State.reset.withFetchWord 16 0x0880)) (fun t => answerIn 0#7 0 t == .data []) = true := by decide

/-! ## Control requests in Sc (95_test_vectors.md sections 2.2 to 2.5) -/

theorem test_getStatus_device : replies [0x80, 0x00, 0, 0, 0, 0, 2, 0] (.data (bytes [0, 0])) = true := by decide
theorem test_getStatus_truncated : replies [0x80, 0x00, 0, 0, 0, 0, 1, 0] (.data (bytes [0])) = true := by decide
theorem test_getStatus_interface : replies [0x81, 0x00, 0, 0, 0, 0, 2, 0] (.data (bytes [0, 0])) = true := by decide
theorem test_getStatus_disabled_half : replies [0x82, 0x00, 0, 0, 0x82, 0, 2, 0] .stall = true := by decide
theorem test_getStatusEndpoint_halted :
    nextSat (exec (.getStatusEndpoint ⟨0#16, 0x0081#16, 2#16⟩) (sc.setHalf 1 .dIn ⟨.stall, true, 0⟩))
      (fun t => answerIn 7#7 0 t == .data (bytes [1, 0])) = true := by decide
theorem test_getStatusEndpoint_number_8 : replies [0x82, 0x00, 0, 0, 8, 0, 2, 0] .stall = true := by decide
theorem test_getStatusDefault : replies [0x9F, 0x00, 0, 0, 0, 0, 2, 0] .stall = true := by decide
theorem test_getDescriptorDevice :
    replies [0x80, 0x06, 0, 1, 0, 0, 0x12, 0] (.data (bytes [0x12, 0x01, 0x00, 0x02, 0x00, 0x00, 0x00, 0x40, 0x08, 0x36,
      0x20, 0xC7, 0x01, 0x01, 0x01, 0x02, 0x00, 0x01])) = true := by decide
theorem test_getDescriptorConfiguration :
    replies [0x80, 0x06, 0, 2, 0, 0, 9, 0] (.data (bytes [0x09, 0x02, 0x20, 0x00, 0x01, 0x01, 0x00, 0x80, 0xFA])) = true := by
  decide
theorem test_getDescriptorConfiguration_end :
    replies [0x80, 0x06, 0, 2, 0, 0, 0xFF, 0] (.data (bytes [0x09, 0x02, 0x20, 0x00, 0x01, 0x01, 0x00, 0x80, 0xFA,
      0x09, 0x04, 0x00, 0x00, 0x02, 0x08, 0x06, 0x50, 0x00, 0x07, 0x05, 0x81, 0x02, 0x40, 0x00, 0x00,
      0x07, 0x05, 0x02, 0x02, 0x40, 0x00, 0x00])) = true := by decide
theorem test_getDescriptorString_product :
    replies [0x80, 0x06, 2, 3, 9, 4, 0xFF, 0] (.data (bytes [0x12, 0x03, 0x43, 0, 0x6F, 0, 0x77, 0, 0x73, 0, 0x74, 0, 0x69, 0,
      0x63, 0, 0x6B, 0])) = true := by decide
theorem test_getDescriptorString_count : replies [0x80, 0x06, 3, 3, 9, 4, 0xFF, 0] .stall = true := by decide
theorem test_getDescriptorDeviceQualifier :
    replies [0x80, 0x06, 0, 6, 0, 0, 0x0A, 0] (.data (bytes [0x0A, 0x06, 0, 2, 0, 0, 0, 0x40, 0, 0])) = true := by decide
theorem test_getDescriptorDefault : replies [0x80, 0x06, 0, 0x0F, 0, 0, 5, 0] .stall = true := by decide
theorem test_getDescriptor_wLength_0 : replies [0x80, 0x06, 0, 2, 0, 0, 0, 0] (.data []) = true := by decide
theorem test_getConfiguration : replies [0x80, 0x08, 0, 0, 0, 0, 1, 0] (.data (bytes [1])) = true := by decide
theorem test_getInterface : replies [0x81, 0x0A, 0, 0, 0, 0, 1, 0] (.data (bytes [0])) = true := by decide
theorem test_getInterface_absent : replies [0x81, 0x0A, 0, 0, 1, 0, 1, 0] .stall = true := by decide
theorem test_clearFeatureDevice : acked [0x00, 0x01, 1, 0, 0, 0, 0, 0] (fun t => t.bot == sc.bot) = true := by decide
theorem test_clearFeatureEndpoint_bulk_in :
    nextSat (exec (.clearFeatureEndpoint ⟨0#16, 0x0081#16, 0#16⟩) (sc.setHalf 1 .dIn ⟨.stall, true, 0⟩))
      (fun t => t.half 1 .dIn == ⟨.nak, false, 0⟩ && t.bot.errFlag) = true := by decide
theorem test_clearFeatureEndpoint_bulk_out :
    nextSat (exec (.clearFeatureEndpoint ⟨0#16, 0x0002#16, 0#16⟩) (sc.setHalf 2 .dOut ⟨.stall, true, 0⟩))
      (fun t => t.half 2 .dOut == ⟨.valid, false, 0⟩ && ! t.bot.errFlag) = true := by decide
theorem test_clearFeature_selector : replies [0x02, 0x01, 1, 0, 0x81, 0, 0, 0] .stall = true := by decide
theorem test_clearFeatureDefault : replies [0x01, 0x01, 0, 0, 0, 0, 0, 0] .stall = true := by decide
theorem test_setFeatureDevice : acked [0x00, 0x03, 1, 0, 0, 0, 0, 0] (fun t => t.bot == sc.bot) = true := by decide
theorem test_setFeatureEndpoint_halts :
    acked [0x02, 0x03, 0, 0, 0x81, 0, 0, 0] (fun t => t.half 1 .dIn == ⟨.stall, false, 0⟩) = true := by decide
theorem test_setFeatureEndpoint_not_ep0 :
    acked [0x02, 0x03, 0, 0, 0x00, 0, 0, 0] (fun t => t.half 0 .dOut == ⟨.valid, false, 8⟩) = true := by decide
theorem test_setFeatureDefault : replies [0x01, 0x03, 0, 0, 0, 0, 0, 0] .stall = true := by decide
theorem test_setAddress_pending :
    acked [0x00, 0x05, 0x2A, 0, 0, 0, 0, 0] (fun t => t.usb.pendingAddress == some 42#7 && t.usb.devAddress == 7#7) = true := by
  decide
theorem test_setAddress_low_bits :
    acked [0x00, 0x05, 0xFF, 0, 0, 0, 0, 0] (fun t => t.usb.pendingAddress == some 127#7) = true := by decide
theorem test_setDescriptor : replies [0x00, 0x07, 0, 1, 0, 0, 0x12, 0] .stall = true := by decide
theorem test_setConfiguration_0 :
    acked [0x00, 0x09, 0, 0, 0, 0, 0, 0] (fun t =>
      t.usb.enumState == .address && (t.half 1 .dIn).state == .disabled && (t.half 2 .dOut).state == .disabled
        && t.bot.phase == .recovery && t.bot.rstFlag) = true := by decide
theorem test_setConfiguration_5 :
    nextSat (exec (.setConfiguration 0#5 ⟨5#16, 0#16, 0#16⟩) (sc.setHalf 2 .dOut ⟨.stall, true, 9⟩))
      (fun t => t.usb.configValue == 5#8 && t.half 2 .dOut == ⟨.valid, false, 0⟩) = true := by decide
theorem test_setInterface : acked [0x01, 0x0B, 0, 0, 0, 0, 0, 0] (fun t => t.bot == sc.bot) = true := by decide
theorem test_setInterface_alternate : replies [0x01, 0x0B, 1, 0, 0, 0, 0, 0] .stall = true := by decide
theorem test_setupDefault_recipient_device : replies [0x60, 0x09, 1, 0, 0, 0, 0, 0] .stall = true := by decide
theorem test_setupDefault_direction : replies [0x80, 0x01, 0, 0, 0, 0, 0, 0] .stall = true := by decide
theorem test_delegate_getMaxLun : replies [0xA1, 0xFE, 0x34, 0x12, 0, 1, 1, 0] (.data (bytes [0])) = true := by decide
theorem test_delegate_absent_interface : replies [0xA1, 0xFE, 0, 0, 1, 0, 1, 0] .stall = true := by decide
theorem test_delegate_vendor : replies [0xC1, 0xFE, 0, 0, 0, 0, 1, 0] .stall = true := by decide
theorem test_delegate_reserved : replies [0x61, 0x05, 0, 0, 0, 0, 0, 0] .stall = true := by decide
theorem test_bulkOnlyReset :
    acked [0x21, 0xFF, 0, 0, 0, 0, 0, 0] (fun t =>
      t.bot.phase == .recovery && t.bot.resetPending && t.bot.rstFlag) = true := by decide
theorem test_mscDefault : replies [0xA1, 0xFF, 0, 0, 0, 0, 0, 0] .stall = true := by decide
theorem test_getMaxLun_three_luns :
    nextSat (exec (.getMaxLun ⟨0#16, 0#16, 1#16⟩)
        { sc with scsi := { sc.scsi with lun := sc.scsi.lun ++ sc.scsi.lun ++ sc.scsi.lun } })
      (fun t => answerIn 7#7 0 t == .data (bytes [2])) = true := by decide

/-! ## SCSI commands (95_test_vectors.md sections 2.8, 2.9, 2.11) -/

/-- The LUN of Sc, absent. -/
def absent : State := withLunRecord ⟨.notPresent, 0x4000#32, true, 0, false⟩ sc

/-- The LUN of Sc, read-only. -/
def readOnly : State := withLunRecord ⟨.ready, 0x4000#32, false, 0, false⟩ sc

theorem test_testUnitReady : nextSat (exec .testUnitReady sc) (fun t => t.scsi.code == 0) = true := by decide
theorem test_testUnitReady_absent : fails .testUnitReady absent 0x2 0x3A 0x00 (-3) = true := by decide
theorem test_requestSense :
    delivers .requestSense (setSense 0x2#4 0x3A#8 0x00#8 sc)
      [0x70, 0, 0x02, 0, 0, 0, 0, 0x0A, 0, 0, 0, 0, 0x3A, 0, 0, 0, 0, 0] = true := by decide
theorem test_requestSense_clears :
    nextSat (exec .requestSense (setSense 0x5#4 0x24#8 0x00#8 sc)) (fun t => t.scsi.sense == noSense) = true := by decide
theorem test_inquiry_page_83 :
    delivers (.inquiry 0#7 1#1 0x83#8) sc [0x00, 0x83, 0x00, 0x20, 0x02, 0x01, 0x00, 0x10, 0x41, 0x47, 0x49, 0x4C, 0x41, 0x43,
      0x4B, 0x20, 0x30, 0x30, 0x30, 0x30, 0x30, 0x30, 0x30, 0x31, 0x01, 0x02, 0x00, 0x08, 0, 0, 0, 0, 0, 0, 0, 1] = true := by
  decide
theorem test_inquiry_page_without_evpd : fails (.inquiry 0#7 0#1 0x80#8) sc 0x5 0x24 0x00 (-1) = true := by decide
theorem test_modeSense6_read_only : delivers .modeSense6 readOnly [0x03, 0x00, 0x80, 0x00] = true := by decide
theorem test_startStopUnit : nextSat (exec .startStopUnit sc) (fun t => t == sc) = true := by decide
theorem test_preventAllowMediumRemoval :
    nextSat (exec .preventAllowMediumRemoval sc) (fun t => t == sc) = true := by decide
theorem test_readFormatCapacities :
    delivers .readFormatCapacities sc [0, 0, 0, 8, 0, 0, 0x40, 0, 2, 0, 2, 0] = true := by decide
theorem test_readCapacity10 : delivers .readCapacity10 absent [0, 0, 0x3F, 0xFF, 0, 0, 2, 0] = true := by decide
theorem test_readCapacity10_largest :
    delivers .readCapacity10 (withLunRecord ⟨.ready, 0xFFFFFFFF#32, true, 0, false⟩ sc)
      [0xFF, 0xFF, 0xFF, 0xFE, 0, 0, 2, 0] = true := by decide
theorem test_read10_first_of_two :
    nextSat (exec (.read10 0x10#32 2#16) (answering [true] sc)) (fun t =>
      t.scsi.code == 2 && t.scsi.ctx == 1#32 && t.bot.dataLen == 512#32
        && Mem.readRange t.bot.dataBuf 509 4 == bytes [0xAB, 0xAB, 0xAB, 0]
        && t.medium.calls == [.read 0 0x10#32]) = true := by decide +kernel
theorem test_read10_out_of_range : faults (exec (.read10 0x3FFF#32 2#16) sc) .lbaOutOfRange = true := by decide
theorem test_write10_preload :
    nextSat (exec (.write10 0x10#32 1#16) (answering [true] sc)) (fun t =>
      t.scsi.code == 4 && t.scsi.ctx == 0#32 && t.medium.calls == [.preload 0 0x10#32]) = true := by decide
theorem test_write10_read_only_first : fails (.write10 0#32 0#16) readOnly 0x7 0x27 0x00 (-3) = true := by decide
theorem test_writeBuffer : fails .writeBuffer sc 0x5 0x20 0x00 (-1) = true := by decide
theorem test_readBuffer : fails .readBuffer sc 0x5 0x20 0x00 (-1) = true := by decide
theorem test_vendor_without_callback : fails (.vendor (bytes [0xC5])) sc 0x5 0x20 0x00 (-1) = true := by decide
theorem test_cdbDefault : fails (.cdbDefault 0x88#8) sc 0x5 0x20 0x00 (-1) = true := by decide

/-! ## The sequencer (95_test_vectors.md sections 2.7, 2.10, 2.11) -/

/-- Case 1: the CSW at once. -/
theorem test_cbw_case_1 :
    nextSat (step (waiting (bytes [0x55, 0x53, 0x42, 0x43, 0x01, 0x00, 0xBE, 0xBA, 0, 0, 0, 0, 0x80, 0, 6,
        0, 0, 0, 0, 0, 0, 0, 0, 0, 0, 0, 0, 0, 0, 0, 0]) sc)) (fun t =>
      t.bot.phase == .awaitCsw
        && answerIn 7#7 1 t == .data (bytes [0x55, 0x53, 0x42, 0x53, 0x01, 0x00, 0xBE, 0xBA, 0, 0, 0, 0, 0])) = true := by
  decide

/-- Case 7: the first 8 of 36 bytes. -/
theorem test_cbw_case_7 :
    nextSat (exec (.cbw (cbwOf 0xBABE0007 8 0x80 6 [0x12, 0, 0, 0, 0x24])) sc) (fun t =>
      t.bot.phase == .dataIn && answerIn 7#7 1 t == .data (bytes [0x00, 0x80, 0x06, 0x02, 0x1F, 0, 0, 0])) = true := by
  decide

/-- Case 13 with H = 100: the residue ends inside a chunk. -/
theorem test_payload_case_13 :
    nextSat (exec (.bulkOutDefault (List.replicate 36 1#8))
        (dataOut (cbwOf 0xBABE001D 100 0 10 [0x2A, 0, 0, 0, 0, 0, 0, 0, 1]) 512 64 36 sc)) (fun t =>
      t.bot.phase == .awaitCsw
        && answerIn 7#7 1 t == .data (bytes [0x55, 0x53, 0x42, 0x53, 0x1D, 0x00, 0xBE, 0xBA, 0, 0, 0, 0, 2])) = true := by
  decide

/-- A packet larger than the residue. -/
theorem test_payload_out_of_bounds :
    faults (exec (.bulkOutDefault (List.replicate 64 1#8))
        (dataOut (cbwOf 1 100 0 10 [0x2A, 0, 0, 0, 0, 0, 0, 0, 1]) 512 64 36 sc)) .outPacketOutOfBounds = true := by
  decide

/-- Case 5: bulk-IN stalled after the last fragment, residue 219. -/
theorem test_data_in_case_5 :
    nextSat (botOnTx (dataIn (cbwOf 0xBABE0005 255 0x80 6 [0x12, 0, 0, 0, 0xFF]) 36 0 255 36 false sc)) (fun t =>
      t.bot.phase == .error && (t.half 1 .dIn).state == .stall && t.bot.csw.residue == 219#32) = true := by decide

/-- Clear Halt un-armed the CSW: it is queued again. -/
theorem test_csw_again :
    nextSat (botOnErr { sc with bot := { sc.bot with phase := .awaitCsw, csw := ⟨5#32, 0#32, 1#8⟩ } }) (fun t =>
      answerIn 7#7 1 t == .data (bytes [0x55, 0x53, 0x42, 0x53, 5, 0, 0, 0, 0, 0, 0, 0, 1])) = true := by decide

/-- The last block of a WRITE(10): written, completed, code 0. -/
theorem test_write_completes :
    nextSat (exec (.write10 0x10#32 2#16)
        (answering [true, true] { sc with scsi := { sc.scsi with inLen := 512#32, ctx := 1#32 } })) (fun t =>
      t.scsi.code == 0 && t.scsi.ctx == 2#32
        && t.medium.calls == [.write 0 0x11#32 (List.replicate 512 0#8), .complete 0]) = true := by decide +kernel

/-! ## The device layer (95_test_vectors.md section 2.6) -/

theorem test_start :
    nextSat (start State.reset) (fun t => t.usb.pullup && t.ep 0 == ep0 && t.usb.enumState == .powered) = true := by decide
theorem test_epConfigure_no_rx_entry_on_slot_1 :
    faults (epConfigure 1 .bulk (some .mscRx) (some .mscTx) none sc) .noStaticBufferForEndpoint = true := by decide
theorem test_epConfigure_no_tx_entry_on_slot_2 :
    faults (epConfigure 2 .bulk (some .mscRx) (some .mscTx) none sc) .noStaticBufferForEndpoint = true := by decide
theorem test_busReset :
    nextSat (onEvent .busReset sc) (fun t =>
      t.usb.enumState == .default && t.usb.devAddress == 0#7 && (t.half 1 .dIn).state == .disabled
        && t.bot.phase == .recovery) = true := by decide
theorem test_address_commit :
    nextSat (onEvent (.txDone 0)
        { sc.setHalf 0 .dIn ⟨.valid, false, 0⟩ with
          usb := { (sc.setHalf 0 .dIn ⟨.valid, false, 0⟩).usb with pendingAddress := some 42#7, enumState := .default } })
      (fun t => t.usb.devAddress == 42#7 && t.usb.enumState == .address && t.usb.pendingAddress == none) = true := by decide
theorem test_boot_first_step :
    nextSat (step State.reset) (fun t => t.usb.ifdrv == [some Driver.msc] && ! t.usb.pullup) = true := by decide

/-! ## The parameters (rule R299) -/

theorem test_devid_order :
    Config.devidDescriptors (bytes [0x01, 0x02, 0, 1, 0x41, 0x02, 0x01, 0, 1, 0x42]) = false
      ∧ Config.devidDescriptors (bytes [0x02, 0x01, 0, 1, 0x41, 0x01, 0x02, 0, 1, 0x42]) = true := by decide
theorem test_devid_no_second : Config.devidDescriptors (bytes [0x02, 0x01, 0, 1, 0x41]) = false := by decide

/-! ## Witnesses: every statement's hypotheses are met, each clause at a boundary of its range -/

theorem nextSat_exists {o : Res} {f : State → Bool} (h : nextSat o f = true) : ∃ t, o = .next t ∧ f t = true := by
  cases o with
  | next t => exact ⟨t, rfl, h⟩
  | fault r => cases h
  | refused r => cases h

theorem witness_DecodeInvertsEncode :
    (Instr.setupDefault 0xFF#8 0xFF#8 ⟨0xFFFF#16, 0xFFFF#16, 0xFFFF#16⟩).wf = true
      ∧ (Instr.mscDefault 0xE1#8 0xFE#8 default).wf = true
      ∧ (Instr.getDescriptorDefault 31#5 0xFF#8 0xFF#8 0#16 0#16).wf = true
      ∧ (Instr.getStatusDefault 3#5 default).wf = true ∧ (Instr.clearFeatureDefault 1#5 default).wf = true
      ∧ (Instr.setFeatureDefault 31#5 default).wf = true
      ∧ (Instr.cbw { cbwOf 0xFFFFFFFF 0xFFFFFFFF 0xFF 0xFF [0xFF] with lun := 15#8 }).wf = true
      ∧ (Instr.bulkOutDefault (List.replicate 64 0xFF#8)).wf = true ∧ (Instr.bulkOutDefault []).wf = true
      ∧ (Instr.vendor (List.replicate 16 0xFF#8)).wf = true ∧ (Instr.cdbDefault 0xBF#8).wf = true
      ∧ (Instr.write10 0xFFFFFFFF#32 0xFFFF#16).wf = true := by decide

theorem witness_DecodersAnswerTheirFormat :
    (bytes [0x82, 0x00, 0x00, 0x00, 0x81, 0x00, 0x02, 0x00]).length = 8
      ∧ decodeAs .getStatus (bytes [0x82, 0x00, 0x00, 0x00, 0x81, 0x00, 0x02, 0x00])
        = .ok (.getStatusEndpoint ⟨0#16, 0x81#16, 2#16⟩) := by decide

theorem witness_SetupRowsByKey : (bytes [0x61, 0x05, 0, 0, 0, 0, 0, 0]).length = 8 := by decide
theorem witness_CdbRowsByByteZero : (List.replicate 16 0xFF#8).length = 16 := by decide
theorem witness_CbwFieldsFromPacket : (encodeCbw (cbwOf 1 2 3 4 [5])).length = 31 ∧ (List.replicate 64 0#8).length ≤ 64 := by
  decide

/-- GET_CONFIGURATION arriving in Sc. -/
def setupComing : State := { sc with inputs := [.rxSetup (bytes [0x80, 0x08, 0, 0, 0, 0, 1, 0])] }

theorem witness_StepRunsSetup :
    setupComing.inputs = .rxSetup (bytes [0x80, 0x08, 0, 0, 0, 0, 1, 0]) :: []
      ∧ setupEnabled (bytes [0x80, 0x08, 0, 0, 0, 0, 1, 0]) setupComing = true
      ∧ decodeSetup (bytes [0x80, 0x08, 0, 0, 0, 0, 1, 0]) = some ⟨0x80#8, 0x08#8, 0#16, 0#16, 1#16⟩
      ∧ decodeAs .setup (bytes [0x80, 0x08, 0, 0, 0, 0, 1, 0]) = .ok (.getConfiguration 0#5 ⟨0#16, 0#16, 1#16⟩) := by decide

theorem witness_StepRunsSetup_stalled_half :
    setupEnabled (bytes [0x80, 0x08, 0, 0, 0, 0, 1, 0]) (sc.setHalf 0 .dOut ⟨.stall, false, 0⟩) = true := by decide

theorem witness_StepRunsBulkPacket_cbw :
    let s := waiting (encodeCbw (cbwOf 1 0 0 6 [])) sc
    s.inputs = .tick :: [] ∧ s.usb.ifdrv = some Driver.msc :: List.replicate 0 none
      ∧ s.bot.rstFlag = false ∧ s.bot.errFlag = false ∧ s.bot.rxFlag = true ∧ s.bot.phase = .awaitCbw
      ∧ decodeAs .bulkOut (s.rxBuf 2) = .ok (.cbw (cbwOf 1 0 0 6 [])) := by decide

theorem witness_StepRunsBulkPacket_payload :
    let s := waiting (bytes [1, 2, 3]) (dataOut (cbwOf 1 512 0 10 [0x2A, 0, 0, 0, 0, 0, 0, 0, 1]) 512 0 512 sc)
    s.inputs = .tick :: [] ∧ s.usb.ifdrv = some Driver.msc :: List.replicate 0 none
      ∧ s.bot.rstFlag = false ∧ s.bot.errFlag = false ∧ s.bot.rxFlag = true ∧ s.bot.phase ≠ .awaitCbw := by decide

theorem witness_ScsiCallRunsDecodedCdb : decodeAs .cdb sc.bot.cbw.cb = .ok .testUnitReady := by decide

theorem witness_FirstLevelRunsSecondLevel :
    decodeAs .setup (bytes [0x82, 0, 0, 0, 0x81, 0, 2, 0]) = .ok (.getStatus 2#5 ⟨0#16, 0x81#16, 2#16⟩)
      ∧ decodeAs .getStatus (bytes [0x82, 0, 0, 0, 0x81, 0, 2, 0]) = .ok (.getStatusEndpoint ⟨0#16, 0x81#16, 2#16⟩) := by
  decide

theorem witness_FirstLevelRunsSecondLevel_msc :
    decodeAs .setup (bytes [0xA1, 0xFE, 0, 0, 0, 0, 1, 0]) = .ok (.ctrlDelegateClass 1#1 0xFE#8 ⟨0#16, 0#16, 1#16⟩)
      ∧ decodeAs .msc (bytes [0xA1, 0xFE, 0, 0, 0, 0, 1, 0]) = .ok (.getMaxLun ⟨0#16, 0#16, 1#16⟩)
      ∧ sc.usb.ifdrv[(byteAt (bytes [0xA1, 0xFE, 0, 0, 0, 0, 1, 0]) 4).toNat]? = some (some Driver.msc)
      ∧ Driver.msc.ctrlReq = true := by decide

theorem witness_SendQueues :
    0x1C0 ≤ sc.cfg.pmaSize ∧ 64 < (List.replicate 65 0#8).length ∧ (List.replicate 64 0#8).length ≤ 64
      ∧ (sc.half 0 .dIn).state = .nak ∧ (sc.half 1 .dIn).state = .nak
      ∧ ((sc.setHalf 1 .dIn ⟨.stall, false, 0⟩).half 1 .dIn).state ≠ .nak := by decide

theorem witness_SendStoresWholeWords : ∃ t, send 0 (bytes [1, 2, 3, 4, 5]) sc = .next t := by
  obtain ⟨t, h, -⟩ := nextSat_exists (o := send 0 (bytes [1, 2, 3, 4, 5]) sc) (f := fun _ => true) (by decide)
  exact ⟨t, h⟩

theorem witness_StartAndRegister : 0 < sc.usb.ifdrv.length ∧ sc.usb.ifdrv.length ≤ 1 := by decide

theorem witness_BusReset : sc.usb.pullup = true := by decide

theorem witness_Ep0DataStage :
    sc.usb.pullup = true ∧ (List.replicate 64 1#8).length ≤ 64 ∧ (sc.half 0 .dOut).state = .valid := by decide

/-- Sc after a class request to the MSC interface, here GET_MAX_LUN, was latched. -/
def delegatedLatched : State :=
  { sc with usb := { sc.usb with setup := ⟨0xA1#8, 0xFE#8, 0#16, 0#16, 1#16⟩ } }

theorem witness_Ep0DataStage_delegated :
    delegatedLatched.usb.pullup = true ∧ (delegatedLatched.half 0 .dOut).state = .valid
      ∧ ((List.replicate 64 1#8).length ≠ 0 ∧ delegatedLatched.usb.setup.bmRequestType &&& 0x60#8 ≠ 0x00#8
        ∧ delegatedLatched.usb.setup.bmRequestType &&& 0x1F#8 = 0x01#8) := by decide

theorem witness_AddressCommit :
    let s := sc.setHalf 0 .dIn ⟨.valid, false, 0⟩
    s.usb.pullup = true ∧ (s.half 0 .dIn).state = .valid ∧ s.usb.pendingAddress = none
      ∧ ({ s with usb := { s.usb with pendingAddress := some 127#7 } } : State).usb.pendingAddress = some 127#7 := by decide

theorem witness_BulkEventsSetFlags :
    sc.usb.pullup = true ∧ (List.replicate 64 1#8).length ≤ 64 ∧ (sc.half 2 .dOut).state = .valid
      ∧ (sc.ep 2).cbRx = some .mscRx
      ∧ ((sc.setHalf 1 .dIn ⟨.valid, false, 64⟩).half 1 .dIn).state = .valid ∧ (sc.ep 1).cbTx = some .mscTx := by decide

theorem witness_QuietEvents :
    sc.scsi.lun[0]? = some ⟨.ready, 0x4000#32, true, 0, false⟩ ∧ sc.bot.phase = .awaitCbw ∧ sc.bot.rxFlag = false
      ∧ sc.setRxFlag.bot.rxFlag = true ∧ sc.scsi.lun.length ≤ 1 := by
  decide

theorem witness_BootOrder :
    sc.inputs = [] ∧ sc.usb.pullup = true ∧ State.reset.usb.pullup = false ∧ State.reset.usb.ifdrv = none :: []
      ∧ ({ State.reset with usb := { State.reset.usb with ifdrv := [some Driver.msc] } } : State).usb.ifdrv
        = some Driver.msc :: [] := by decide

/-! The control requests. -/

theorem witness_ep0Ready : sc.ep0Ready ∧ sc.cfg.valid = true := by decide

theorem witness_GetStatus_names_a_half :
    sc.ep0Ready ∧ NamesHalf 0x0081#16 sc 1 .dIn ∧ NamesHalf 0xFF02#16 sc 2 .dOut ∧ NamesHalf 0x0080#16 sc 0 .dIn := by decide

theorem witness_GetStatus_names_no_half : ∀ n d, ¬ NamesHalf 0x0082#16 sc n d := by
  intro n d; revert n; cases d <;> decide

theorem witness_GetStatus_number_8 : ∀ n d, ¬ NamesHalf 0x0008#16 sc n d := by
  intro n d; revert n; cases d <;> decide

theorem witness_GetStatus_other_recipient : 3 ≤ (3#5).toNat ∧ 3 ≤ (31#5).toNat := by decide

theorem witness_GetDescriptor :
    sc.ep0Ready ∧ sc.cfg.valid = true ∧ (2#8).toNat = 1 + 1
      ∧ sc.cfg.strings[1]? = some [0x43#16, 0x6F#16, 0x77#16, 0x73#16, 0x74#16, 0x69#16, 0x63#16, 0x6B#16]
      ∧ sc.cfg.strings.length + 1 ≤ (3#8).toNat
      ∧ (0x07#8 ≠ 0x01#8 ∧ 0x07#8 ≠ 0x02#8 ∧ 0x07#8 ≠ 0x03#8 ∧ 0x07#8 ≠ 0x06#8) := by decide

theorem witness_registered_interface :
    sc.ep0Ready ∧ sc.usb.ifdrv[((0x0100#16).extractLsb' 0 8).toNat]? = some (some Driver.msc) := by decide

theorem witness_absent_interface :
    ∀ d : Driver, sc.usb.ifdrv[((0x0001#16).extractLsb' 0 8).toNat]? ≠ some (some d) := by
  intro d h; cases h

theorem witness_ClearFeature :
    sc.ep0Ready ∧ NamesHalf 0x0081#16 sc 1 .dIn ∧ NamesHalf 0x0002#16 sc 2 .dOut ∧ NamesHalf 0x0000#16 sc 0 .dOut
      ∧ (sc.ep 1).cbRelease = some .mscRelease ∧ (sc.ep 0).cbRelease = none ∧ (1#16 ≠ 0#16)
      ∧ (1#5 ≠ 0#5 ∧ 1#5 ≠ 2#5) := by decide

theorem witness_SetFeature :
    sc.ep0Ready ∧ NamesHalf 0x0081#16 sc 1 .dIn ∧ NamesHalf 0x0000#16 sc 0 .dOut ∧ (31#5 ≠ 0#5 ∧ 31#5 ≠ 2#5) := by decide

theorem witness_SetConfiguration :
    sc.ep0Ready ∧ sc.usb.ifdrv.any (fun o => o.any (fun d => d.enable)) = true
      ∧ ((0x0100#16).extractLsb' 0 8 : Byte) = 0#8 ∧ ((0x00FF#16).extractLsb' 0 8 : Byte) ≠ 0#8
      ∧ State.reset.usb.ifdrv.any (fun o => o.any (fun d => d.enable)) = false := by decide

theorem witness_ClassRequests :
    sc.ep0Ready ∧ sc.usb.ifdrv[((0#16).extractLsb' 0 8).toNat]? = some (some Driver.msc) ∧ Driver.msc.ctrlReq = true := by
  decide

theorem witness_DelegatedRequestsRefused :
    ¬ (1#1 = 1#1 ∧ 0xFF#8 = 0xFE#8) ∧ ¬ (1#1 = 0#1 ∧ 0xFF#8 = 0xFF#8) := by decide

theorem witness_DelegatedRequestsRefused_no_driver :
    ∀ d : Driver, sc.usb.ifdrv[((1#16).extractLsb' 0 8).toNat]? = some (some d) → d.ctrlReq = false := by
  intro d h; cases h

/-! The SCSI commands. -/

theorem witness_LUN :
    sc.scsi.lun[sc.bot.cbw.lun.toNat]? = some ⟨.ready, 0x4000#32, true, 0, false⟩
      ∧ absent.scsi.lun[absent.bot.cbw.lun.toNat]? = some ⟨.notPresent, 0x4000#32, true, 0, false⟩
      ∧ readOnly.scsi.lun[readOnly.bot.cbw.lun.toNat]? = some ⟨.ready, 0x4000#32, false, 0, false⟩ := by decide

theorem witness_Inquiry :
    sc.cfg.valid = true ∧ (1#7 ≠ 0#7) ∧ (0#1 = 0#1 ∧ 0x80#8 ≠ 0x00#8)
      ∧ (1#1 = 1#1 ∧ 0xB0#8 ≠ 0x00#8 ∧ 0xB0#8 ≠ 0x80#8 ∧ 0xB0#8 ≠ 0x83#8) := by decide

theorem witness_Read10 :
    sc.scsi.ctx = 0#32 ∧ (1#16 ≠ 0#16) ∧ (0x3FFF#32).toNat + (1#16).toNat ≤ (0x4000#32).toNat
      ∧ (0x4000#32).toNat < (0x3FFF#32).toNat + (2#16).toNat
      ∧ (lunCall (.read 0 0x3FFF#32) (answering [true] sc)).1.ok = true
      ∧ (lunCall (.read 0 0x3FFF#32) (answering [false] sc)).1.ok = false := by decide

theorem witness_Write10 :
    sc.scsi.inLen = 0#32
      ∧ ({ sc with scsi := { sc.scsi with inLen := 512#32 } } : State).scsi.inLen ≠ 0#32
      ∧ (lunCall (.preload 0 0#32) (answering [false] sc)).1.ok = false
      ∧ (lunCall (.write 0 0#32 []) (answering [true, false] sc)).1.ok = true
      ∧ (lunCall (.complete 0) (lunCall (.write 0 0#32 []) (answering [true, false] sc)).2).1.ok = false := by decide

theorem witness_LunOracle :
    sc.medium.answers = [] ∧ (answering [true] sc).medium.answers
      = ⟨true, Vector.replicate 512 0xAB#8, ⟨0, [], 0#32, none⟩⟩ :: [] := ⟨rfl, rfl⟩

theorem witness_UnsupportedCommands :
    sc.cfg.hasBufferCmds = false
      ∧ ({ sc with cfg := { sc.cfg with hasBufferCmds := true } } : State).cfg.hasBufferCmds = true := by decide

/-- A LUN with a vendor callback that will give this answer. -/
def vendorLun (code : Int) (n : Nat) : State :=
  { withLunRecord ⟨.ready, 0x4000#32, true, 0, true⟩ sc with
    medium := ⟨[⟨true, Vector.replicate 512 0#8, ⟨code, List.replicate n 7#8, 5#32, none⟩⟩], 0, []⟩ }

/-- The answer that `vendorLun` gives to a command. -/
def vendorAnswer (code : Int) (n : Nat) : VendorAnswer :=
  (lunCall (.vendor 0 [] 0#32 []) (vendorLun code n)).1.vendor

theorem witness_VendorCommand :
    (vendorLun 1 1).scsi.lun[(vendorLun 1 1).bot.cbw.lun.toNat]? = some ⟨.ready, 0x4000#32, true, 0, true⟩
      ∧ ((vendorAnswer 0 0).code ≠ 1 ∧ (vendorAnswer 0 0).code ≠ 2)
      ∧ ((vendorAnswer 1 1).code = 1 ∧ 1 ≤ (vendorAnswer 1 1).payload.length)
      ∧ ((vendorAnswer 2 512).code = 2 ∧ (vendorAnswer 2 512).payload.length ≤ 512)
      ∧ ((vendorAnswer 2 0).code = 2 ∧ ¬ (1 ≤ (vendorAnswer 2 0).payload.length)) := by
  decide +kernel

theorem witness_vendor_completes : nextSat (exec (.vendor (bytes [0xC5])) (vendorLun 1 1)) (fun t => t.scsi.ctx == 5#32) = true := by
  decide

theorem witness_ScsiCommandsNeverTouchEndpoints :
    Instr.testUnitReady.format = .cdb ∧ ∃ t, exec .testUnitReady sc = .next t := by
  obtain ⟨t, h, -⟩ := nextSat_exists (o := exec .testUnitReady sc) (f := fun _ => true) (by decide)
  exact ⟨rfl, t, h⟩

theorem witness_SenseAfterCommands :
    (∀ cb, Instr.testUnitReady ≠ .vendor cb) ∧ ∃ t, exec .testUnitReady absent = .next t ∧ t.scsi.code < 0 := by
  obtain ⟨t, h, g⟩ := nextSat_exists (o := exec .testUnitReady absent) (f := fun t => decide (t.scsi.code < 0)) (by decide)
  exact ⟨fun _ h => (by cases h), t, h, of_decide_eq_true g⟩

/-! The sequencer. -/

/-- The command of a CBW runs on the state its acceptance leaves, ends with this code, and bulk-IN is idle. -/
def called (c : Cbw) (s : State) (code : Int) : Bool :=
  nextSat (scsiCall 0#32 { s with bot := { s.bot with
    cbw := c, csw := ⟨c.tag, c.dtl, 0#8⟩, dataOffset := 0#32, dataLen := 0#32, moreData := false } })
    fun u => decide u.bulkInReady && u.scsi.code == code

theorem called_exists {c : Cbw} {s : State} {code : Int} (h : called c s code = true) :
    ∃ u, scsiCall 0#32 { s with bot := { s.bot with
      cbw := c, csw := ⟨c.tag, c.dtl, 0#8⟩, dataOffset := 0#32, dataLen := 0#32, moreData := false } } = .next u
      ∧ u.bulkInReady ∧ u.scsi.code = code := by
  obtain ⟨u, hu, g⟩ := nextSat_exists h
  simp only [Bool.and_eq_true, decide_eq_true_eq, beq_iff_eq] at g
  exact ⟨u, hu, g.1, g.2⟩

theorem witness_CbwThirteenCases_meaningful :
    let c := cbwOf 1 0 0x80 6 []
    let d := { cbwOf 1 8 0x80 16 [1] with lun := 0#8 }
    (1 ≤ c.cbLength.toNat ∧ c.cbLength.toNat ≤ 16 ∧ c.lun.toNat < sc.scsi.lun.length
      ∧ ∀ b ∈ c.cb.drop c.cbLength.toNat, b = 0#8)
    ∧ (d.cbLength.toNat ≤ 16 ∧ ∀ b ∈ d.cb.drop d.cbLength.toNat, b = 0#8) := by decide

theorem witness_CbwThirteenCases_code_0 : called (cbwOf 1 0 0x80 6 []) sc 0 = true := by decide
theorem witness_CbwThirteenCases_code_failed : called (cbwOf 1 8 0x80 6 []) absent (-3) = true := by decide
theorem witness_CbwThirteenCases_code_1 : called (cbwOf 1 36 0 6 [0x12]) sc 1 = true := by decide
theorem witness_CbwThirteenCases_code_2 :
    called (cbwOf 1 1024 0x80 10 [0x28, 0, 0, 0, 0, 0, 0, 0, 2]) (answering [true] sc) 2 = true := by decide +kernel
theorem witness_CbwThirteenCases_code_3 :
    called (cbwOf 1 1024 0 10 [0x2A, 0, 0, 0, 0, 0, 0, 0, 2]) (answering [true] sc) 3 = true := by decide
theorem witness_CbwThirteenCases_code_4 :
    called (cbwOf 1 512 0x80 10 [0x2A, 0, 0, 0, 0, 0, 0, 0, 1]) (answering [true] sc) 4 = true := by decide
/-- A vendor callback's -2 is outside the table of rule R282; -1 and -3 are a failed command. -/
theorem test_cbw_code_m2_stops :
    faults (exec (.cbw (cbwOf 1 0 0 6 [0xC0])) (vendorLun (-2) 0)) .scsiReturnCodeOutOfRange = true := by decide
theorem test_cbw_code_m3_fails :
    nextSat (exec (.cbw (cbwOf 1 0 0 6 [0xC0])) (vendorLun (-3) 0)) (fun t => t.bot.csw.status == 1#8) = true := by decide

theorem witness_CbwThirteenCases_code_m1 : called (cbwOf 1 0 0 6 [0xC0]) (vendorLun (-1) 0) (-1) = true := by decide
theorem witness_CbwThirteenCases_code_m2 : called (cbwOf 1 0 0 6 [0xC0]) (vendorLun (-2) 0) (-2) = true := by decide
theorem witness_CbwThirteenCases_code_m4 : called (cbwOf 1 0 0 6 [0xC0]) (vendorLun (-4) 0) (-4) = true := by decide
theorem witness_CbwThirteenCases_code_5 : called (cbwOf 1 0 0 6 [0xC0]) (vendorLun 5 0) 5 = true := by decide

theorem witness_CbwThirteenCases_host_classes :
    (cbwOf 1 0 0 6 []).dtl = 0#32 ∧ ((cbwOf 1 8 0x80 6 []).dtl ≠ 0#32 ∧ (cbwOf 1 8 0x80 6 []).flags.getLsbD 7 = true)
      ∧ ((cbwOf 1 8 0x7F 6 []).dtl ≠ 0#32 ∧ (cbwOf 1 8 0x7F 6 []).flags.getLsbD 7 = false) := by decide

theorem witness_CbwTestUnitReady :
    let c := cbwOf 1 8 0x80 1 []
    1 ≤ c.cbLength.toNat ∧ c.cbLength.toNat ≤ 16
      ∧ sc.scsi.lun[c.lun.toNat]? = some ⟨.ready, 0x4000#32, true, 0, false⟩
      ∧ c.cb = 0x00#8 :: List.replicate 15 0#8 ∧ (∀ b ∈ c.cb.drop c.cbLength.toNat, b = 0#8) ∧ sc.bulkInReady := by decide

theorem witness_PacketsRejected :
    (cbwOf 1 0 0 0 []).cbLength.toNat < 1 ∧ 16 < (cbwOf 1 0 0 17 []).cbLength.toNat
      ∧ sc.scsi.lun.length ≤ ({ cbwOf 1 0 0 6 [] with lun := 1#8 } : Cbw).lun.toNat
      ∧ (∃ b ∈ (cbwOf 1 0 0 6 [0, 0, 0, 0, 0, 0, 1]).cb.drop (cbwOf 1 0 0 6 [0, 0, 0, 0, 0, 0, 1]).cbLength.toNat, b ≠ 0#8)
      ∧ sc.bot.phase = .awaitCbw
      ∧ ((sc.setPhase .error).bot.phase ≠ .awaitCbw ∧ (sc.setPhase .error).bot.phase ≠ .dataOut) := by decide

/-- Discard mode with `off` of 100 bytes thrown away. -/
def discarding (off : Nat) : State := dataOut (cbwOf 9 100 0 6 []) 0 off 100 sc

theorem witness_DiscardedPackets :
    ((discarding 64).bot.phase = .dataOut ∧ (discarding 64).bot.dataLen = 0#32 ∧ (discarding 64).bulkInReady)
      ∧ ((discarding 64).bot.cbw.dtl - (discarding 64).bot.dataOffset).toNat < 37
      ∧ (36 ≤ ((discarding 64).bot.cbw.dtl - (discarding 64).bot.dataOffset).toNat
        ∧ (discarding 64).bot.dataOffset + BitVec.ofNat 32 36 = (discarding 64).bot.cbw.dtl)
      ∧ (discarding 64).bot.dataOffset + BitVec.ofNat 32 35 ≠ (discarding 64).bot.cbw.dtl := by decide

/-- DATA_OUT for a WRITE(10) of two blocks, `ctx` blocks written, `off` of the chunk and `residue` outstanding. -/
def writing (ctx off residue : Nat) (l : List Bool) : State :=
  answering l (dataOut (cbwOf 1 1024 0 10 [0x2A, 0, 0, 0, 0, 0, 0, 0, 2]) 512 off residue
    { sc with scsi := { sc.scsi with ctx := BitVec.ofNat 32 ctx } })

/-- A packet of 64 zero bytes completes the chunk: the write command runs, ends with this code, leaves this residue. -/
def chunkDone (ctx residue : Nat) (l : List Bool) (code : Int) (left : Nat) : Bool :=
  let s := writing ctx 448 residue l
  nextSat (scsiCall s.bot.dataLen { s with bot := { s.bot with
      dataOffset := s.bot.dataOffset + BitVec.ofNat 32 64,
      csw := { s.bot.csw with residue := s.bot.csw.residue - BitVec.ofNat 32 64 } } })
    fun v => decide v.bulkInReady && v.scsi.code == code && v.bot.csw.residue == BitVec.ofNat 32 left

theorem witness_PayloadPackets :
    let s := writing 0 448 576 []
    (s.bot.phase = .dataOut ∧ s.bot.dataLen ≠ 0#32)
      ∧ (s.bot.dataLen - s.bot.dataOffset).toNat < 65 ∧ (writing 0 0 63 []).bot.csw.residue.toNat < 64
      ∧ (64 ≤ (s.bot.dataLen - s.bot.dataOffset).toNat ∧ 64 ≤ s.bot.csw.residue.toNat
        ∧ s.bot.dataOffset + BitVec.ofNat 32 64 = s.bot.dataLen)
      ∧ (s.bot.dataOffset + BitVec.ofNat 32 63 ≠ s.bot.dataLen ∧ s.bot.csw.residue - BitVec.ofNat 32 63 ≠ 0#32)
      ∧ (writing 0 0 64 []).bot.csw.residue - BitVec.ofNat 32 64 = 0#32 := by decide

theorem witness_PayloadPackets_more : chunkDone 0 576 [true] 4 512 = true := by decide +kernel
theorem witness_PayloadPackets_case_13 : chunkDone 0 64 [true] 4 0 = true := by decide +kernel
theorem witness_PayloadPackets_case_12 : chunkDone 1 64 [true, true] 0 0 = true := by decide +kernel
theorem witness_PayloadPackets_case_11 : chunkDone 1 576 [true, true] 0 512 = true := by decide +kernel
theorem witness_PayloadPackets_error : chunkDone 0 576 [false] (-1) 512 = true := by decide +kernel
theorem witness_PayloadPackets_error_at_end : chunkDone 1 64 [false] (-1) 0 = true := by decide +kernel

/-- A vendor write's whole chunk, on which the callback returns this code. -/
def vendorChunk (code : Int) : Bool :=
  nextSat (scsiCall 512#32 { vendorLun code 0 with bot := { (vendorLun code 0).bot with
    cbw := cbwOf 1 512 0 6 [0xC0], phase := .dataOut, dataLen := 512#32, dataOffset := 512#32 } })
    fun v => decide v.bulkInReady && v.scsi.code == code

theorem witness_PayloadPackets_code_5 : vendorChunk 5 = true := by decide
theorem witness_PayloadPackets_code_m2 : vendorChunk (-2) = true := by decide
theorem witness_PayloadPackets_code_m3 : vendorChunk (-3) = true := by decide
theorem witness_PayloadPackets_code_m4 : vendorChunk (-4) = true := by decide

/-- DATA_IN for a READ(10) of two blocks, the first one delivered but for a fragment of `n` bytes just taken. -/
def reading (off residue n : Nat) (more : Bool) (l : List Bool) : State :=
  answering l (dataIn (cbwOf 1 1024 0x80 10 [0x28, 0, 0, 0, 0, 0, 0, 0, 2]) 512 off residue n more
    { sc with scsi := { sc.scsi with ctx := 1#32 } })

theorem witness_DataInContinues :
    ((reading 448 576 64 true []).bot.phase = .dataIn ∧ (reading 448 576 64 true []).bulkInReady)
      ∧ (reading 448 64 64 true []).bot.csw.residue - 64#32 = 0#32
      ∧ (reading 448 64 64 false []).bot.moreData = false
      ∧ (reading 384 576 64 true []).bot.csw.residue - 64#32 ≠ 0#32
      ∧ ((reading 384 576 64 true []).bot.dataOffset + 64#32).toNat < (reading 384 576 64 true []).bot.dataLen.toNat
      ∧ ¬ ((reading 448 576 64 true []).bot.dataOffset + 64#32).toNat < (reading 448 576 64 true []).bot.dataLen.toNat := by
  decide

/-- The next block is asked for after the last fragment of the first. -/
def nextBlock (l : List Bool) (code : Int) : Bool :=
  let s := reading 448 576 64 true l
  nextSat (scsiCall 0#32 (s.moved 64)) fun v => decide v.bulkInReady && v.scsi.code == code

theorem witness_DataInContinues_next_block : nextBlock [true] 1 = true := by decide +kernel
theorem witness_DataInContinues_read_error : nextBlock [false] (-1) = true := by decide

/-- The next block of a vendor read is asked for, and the callback returns this code. -/
def vendorBlock (code : Int) : Bool :=
  nextSat (scsiCall 0#32 ((dataIn (cbwOf 1 1024 0x80 6 [0xC0]) 512 448 576 64 true (vendorLun code 0)).moved 64))
    fun v => decide v.bulkInReady && v.scsi.code == code

theorem witness_DataInContinues_code_0 : vendorBlock 0 = true := by decide
theorem witness_DataInContinues_code_3 : vendorBlock 3 = true := by decide
theorem witness_DataInContinues_code_m2 : vendorBlock (-2) = true := by decide
theorem witness_DataInContinues_code_m3 : vendorBlock (-3) = true := by decide
theorem witness_DataInContinues_code_m4 : vendorBlock (-4) = true := by decide

theorem witness_CswTaken :
    (sc.setPhase .awaitCsw).bot.phase = .awaitCsw
      ∧ ((sc.setPhase .error).bot.phase ≠ .awaitCsw ∧ (sc.setPhase .error).bot.phase ≠ .dataIn)
      ∧ ((sc.setPhase .recovery).bot.phase ≠ .awaitCsw ∧ (sc.setPhase .recovery).bot.phase ≠ .dataIn) := by decide

theorem witness_DeferredCsw :
    ((sc.setPhase .error).bot.phase = .error ∧ ((sc.setPhase .error).half 2 .dOut).state ≠ .stall
      ∧ (sc.setPhase .error).bulkInReady)
    ∧ ((sc.setPhase .awaitCsw).bot.phase = .awaitCsw ∧ (sc.setPhase .awaitCsw).bot.txFlag = false
      ∧ (sc.setPhase .awaitCsw).bulkInReady)
    ∧ ¬ (sc.bot.phase = .error) ∧ ¬ (sc.bot.phase = .awaitCsw) := by decide

theorem witness_TickServesFlagsInOrder :
    sc.usb.ifdrv = some Driver.msc :: List.replicate 0 none ∧ sc.bot.rstFlag = false ∧ sc.bot.errFlag = false
      ∧ sc.setErrFlag.bot.errFlag = true ∧ sc.requestReset.bot.rstFlag = true := by decide

theorem witness_BulkPacketsFrame :
    (Instr.cbw (cbwOf 1 0 0 6 [])).format = .bulkOut ∧ ∃ t, exec (.cbw (cbwOf 1 0 0 6 [])) sc = .next t := by
  obtain ⟨t, h, -⟩ := nextSat_exists (o := exec (.cbw (cbwOf 1 0 0 6 [])) sc) (f := fun _ => true) (by decide)
  exact ⟨rfl, t, h⟩

/-! The whole machine. -/

/-- The invariant holds in Sc. -/
theorem sc_idle_inv : sc.Inv where
  params := ⟨by decide, by decide, by decide, by decide⟩
  memory := ⟨by decide, fun c h => (List.not_mem_nil h).elim, by decide, fun c h => (List.not_mem_nil h).elim⟩
  endpoints :=
    { slot1 := by decide
      slot2 := by decide
      unused := by intro n h d; revert n; cases d <;> decide
      counts := by intro n d; revert n; cases d <;> decide
      boundRx := by decide
      boundTx := by decide
      boundRel := by decide
      ep0 := fun _ => by decide
      unstarted := fun h => by cases h }
  session :=
    { pending := by decide
      recover := by decide
      block := by decide
      tag := by decide
      status := by decide
      residue := by decide
      chunk := by decide
      dataOut := fun h => by cases h
      dataIn := fun h => by cases h
      awaitCsw := fun h => by cases h
      idleIn := fun _ => by decide
      oneIn := fun _ => by decide
      ctx := fun _ => by decide
      sense := by decide }

/-- The invariant holds in Sc, whatever events are to come: it reads no event. -/
theorem sc_inv (es : List Event) : ({ sc with inputs := es } : State).Inv :=
  let ⟨⟨a1, a2, a3, a4⟩, ⟨b1, b2, b3, b4⟩, ⟨c1, c2, c3, c4, c5, c6, c7, c8, c9⟩,
    ⟨d1, d2, d3, d4, d5, d6, d7, d8, d9, d10, d11, d12, d13, d14⟩⟩ := sc_idle_inv
  ⟨⟨a1, a2, a3, a4⟩, ⟨b1, b2, b3, b4⟩, ⟨c1, c2, c3, c4, c5, c6, c7, c8, c9⟩,
    ⟨d1, d2, d3, d4, d5, d6, d7, d8, d9, d10, d11, d12, d13, d14⟩⟩

theorem witness_StepKeepsInv : setupComing.Inv ∧ ∃ t, step setupComing = .next t := by
  obtain ⟨t, h, -⟩ := nextSat_exists (o := step setupComing) (f := fun _ => true) (by decide)
  exact ⟨sc_inv _, t, h⟩

theorem witness_EverySetupServed :
    setupComing.Inv ∧ setupComing.inputs = .rxSetup (bytes [0x80, 0x08, 0, 0, 0, 0, 1, 0]) :: []
      ∧ setupEnabled (bytes [0x80, 0x08, 0, 0, 0, 0, 1, 0]) setupComing = true := ⟨sc_inv _, by decide, by decide⟩

theorem witness_UnreachableFaults :
    ({ sc with inputs := [.registerInterface 1 Driver.msc] } : State).Inv
      ∧ step { sc with inputs := [.registerInterface 1 Driver.msc] } = .fault .interfaceIndexOutOfRange :=
  ⟨sc_inv _, rfl⟩

theorem witness_WhoWritesTheAddress :
    ∃ t, step { sc with inputs := [.busReset] } = .next t ∧ t.usb.devAddress ≠ sc.usb.devAddress := by
  obtain ⟨t, h, g⟩ := nextSat_exists (o := step { sc with inputs := [.busReset] })
    (f := fun t => decide (t.usb.devAddress ≠ sc.usb.devAddress)) (by decide)
  exact ⟨t, h, of_decide_eq_true g⟩

theorem witness_ConfigurationIsNeverWritten :
    ∃ t, step { sc with inputs := [.mediumChange 0 .notPresent] } = .next t ∧ t.scsi.lun ≠ sc.scsi.lun := by
  obtain ⟨t, h, g⟩ := nextSat_exists (o := step { sc with inputs := [.mediumChange 0 .notPresent] })
    (f := fun t => decide (t.scsi.lun ≠ sc.scsi.lun)) (by decide)
  exact ⟨t, h, of_decide_eq_true g⟩

end Sys2Proof.Tests
end

section
/-! PROOFS. The device layer (40_usb_device_layer.md): `send` (rules R65, R144), bus reset (rules R147, R230), `start`
and `register_interface` (rules R141, R145). -/

namespace Sys2Proof.Machine

/-! ## `send` -/

/-- `send` refuses a packet beyond 64 bytes (rule R144). -/
theorem send_tooLong (n : Fin 8) (bytes : List Byte) (s : State) (h : 64 < bytes.length) :
    send n bytes s = .fault .sendTooLong :=
  if_pos h

/-- `send` refuses a half that is not NAK (rule R144). -/
theorem send_notIdle (n : Fin 8) (bytes : List Byte) (s : State) (hl : bytes.length ≤ 64)
    (h : (s.half n .dIn).state ≠ .nak) : send n bytes s = .fault .sendHalfNotIdle :=
  (if_neg (Nat.not_lt.2 hl)).trans (if_pos h)

/-- `send` queues a packet of at most 64 bytes on an idle half whose buffer is inside packet memory. -/
theorem send_queued (n : Fin 8) (off : Nat) (bytes : List Byte) (s : State) (hoff : txOffset n = some off)
    (hpma : off + 64 ≤ s.cfg.pmaSize) (hl : bytes.length ≤ 64) (hnak : (s.half n .dIn).state = .nak) :
    ∃ t, send n bytes s = .next t ∧ Queued n bytes s t := by
  have hfits : off + (padWord bytes).length ≤ s.cfg.pmaSize := by
    have := padWord_le bytes hl
    omega
  exact ⟨s.sent n off bytes, (send_eq_next _ _ _ _).2 ⟨hl, hnak, off, hoff, hfits, rfl⟩, queued_sent _ _ _ _ hoff hl⟩

/-- Settles O11: the refusals are the guards of `send`, and both transmit buffers end at or below 0x1C0. -/
theorem sendQueues : Obligations.SendQueues := by
  intro n bytes s hn hpma
  refine ⟨send_tooLong n bytes s, send_notIdle n bytes s, fun hl hnak => ?_⟩
  rcases hn with rfl | rfl
  · exact send_queued 0 0x80 bytes s rfl (by omega) hl hnak
  · exact send_queued 1 0x180 bytes s rfl (by omega) hl hnak

/-! ## Bus reset -/

/-- Resetting slots touches the endpoint table only. -/
theorem resetSlots_frame (ns : List (Fin 8)) (s : State) :
    resetSlots ns s = { s with usb := { s.usb with ep := (resetSlots ns s).usb.ep } } := by
  induction ns generalizing s with
  | nil => rfl
  | cons n ns ih => exact ih (s.setEp n (resetSlot (s.ep n)))

@[simp] theorem resetSlot_resetSlot (e : Endpoint) : resetSlot (resetSlot e) = resetSlot e := rfl

/-- The slots of the list are reset, the others stay. -/
theorem ep_resetSlots (ns : List (Fin 8)) (s : State) (m : Fin 8) :
    (resetSlots ns s).ep m = if m ∈ ns then resetSlot (s.ep m) else s.ep m := by
  induction ns generalizing s with
  | nil => simp [resetSlots]
  | cons n ns ih =>
    rw [resetSlots, ih, State.ep_setEp]
    by_cases h : m = n
    · subst h
      simp
    · simp [h]

@[simp] theorem requestReset_requestReset (s : State) : s.requestReset.requestReset = s.requestReset := rfl

/-- A session reset is requested if one of the drivers has a `reset`; more than one request it no further
(rules R147, R230). -/
theorem forDrivers_resetDriver (ds : List (Option Driver)) (s : State) :
    forDrivers resetDriver ds s
      = .next (if ds.any (fun o => o.any (fun d => d.reset)) then s.requestReset else s) := by
  induction ds generalizing s with
  | nil => rfl
  | cons o ds ih =>
    cases o with
    | none => exact ih s
    | some d =>
      simp only [forDrivers_some, resetDriver, andThen_next, ih]
      cases hd : d.reset <;> simp [hd]

/-- The device layer after a bus reset, before the drivers' callbacks (rule R147). -/
def State.busResetDevice (s : State) : State :=
  (resetSlots [1, 2, 3, 4, 5, 6, 7] { s with usb := { s.usb with
    enumState := .default, devAddress := 0#7, pendingAddress := none, configValue := 0#8 } }).setEp 0
      (configured .control (some .ep0Engine) (some .ep0Engine) none)

/-- Outside the endpoint table, a bus reset clears the addresses and the configuration value. -/
theorem busResetDevice_frame (s : State) :
    s.busResetDevice = { s with usb := { s.usb with
      enumState := .default, devAddress := 0#7, pendingAddress := none, configValue := 0#8,
      ep := s.busResetDevice.usb.ep } } := by
  unfold State.busResetDevice
  rw [resetSlots_frame]
  rfl

theorem busResetDevice_ep_zero (s : State) :
    s.busResetDevice.ep 0 = configured .control (some .ep0Engine) (some .ep0Engine) none :=
  (State.ep_setEp _ _ _ _).trans (if_pos rfl)

theorem busResetDevice_ep_other (s : State) (n : Fin 8) (h : n ≠ 0) :
    s.busResetDevice.ep n = resetSlot (s.ep n) := by
  have hn : n ∈ ([1, 2, 3, 4, 5, 6, 7] : List (Fin 8)) := by
    revert n
    decide
  rw [State.busResetDevice, State.ep_setEp, if_neg h, ep_resetSlots, if_pos hn, State.ep_mk_usb]

/-- A bus reset of a started device: the device layer first, then the drivers (rule R147). -/
theorem onBusReset_started (s : State) (h : s.usb.pullup = true) :
    onBusReset s
      = .next (if s.usb.ifdrv.any (fun o => o.any (fun d => d.reset)) then s.busResetDevice.requestReset
          else s.busResetDevice) := by
  have hdrv : s.busResetDevice.usb.ifdrv = s.usb.ifdrv := by rw [busResetDevice_frame]
  have hdev : onBusReset s = forDrivers resetDriver s.busResetDevice.usb.ifdrv s.busResetDevice := if_pos h
  rw [hdev, forDrivers_resetDriver, hdrv]

/-- Settles O14: the drivers' callbacks leave the device layer alone, so it is as `busResetDevice` describes it in
both cases of the driver table. -/
theorem busReset : Obligations.BusReset := by
  intro s hpull
  refine ⟨_, onBusReset_started s hpull, ?_⟩
  cases s.usb.ifdrv.any (fun o => o.any (fun d => d.reset)) with
  | false => exact ⟨busResetDevice_ep_zero s, busResetDevice_ep_other s, busResetDevice_frame s⟩
  | true =>
    exact ⟨busResetDevice_ep_zero s, busResetDevice_ep_other s, congrArg State.requestReset (busResetDevice_frame s)⟩

/-! ## `start` and `register_interface` -/

/-- Settles O13: EP0 always has its buffers, and the index is below the table's length or not. -/
theorem startAndRegister : Obligations.StartAndRegister := by
  intro s
  refine ⟨?_, fun i d => ⟨fun h => ?_, fun h => ?_⟩⟩
  · simp only [onEvent, start, configureEp0_eq, andThen_next]
    rfl
  · exact if_neg (Nat.not_le.2 h)
  · exact if_pos h

end Sys2Proof.Machine
end

section
/-! PROOFS. The control requests (41_usb_control_requests.md): addresses and configurations (rules R190, R196, R225),
interfaces (rules R195, R198, R199), the MSC driver's class requests (rules R203, R204), the refused ones (rules R149,
R194). -/

namespace Sys2Proof.Machine

/-! ## The driver table -/

/-- An interface has a driver exactly where the table holds one. -/
theorem driver_eq_some (s : State) (i : Nat) (d : Driver) :
    s.driver i = some d ↔ s.usb.ifdrv[i]? = some (some d) :=
  Option.join_eq_some_iff

/-- An interface has no driver where the table ends before it or holds a null entry. -/
theorem driver_eq_none (s : State) (i : Nat) : s.driver i = none ↔ ∀ d, s.usb.ifdrv[i]? ≠ some (some d) := by
  simp only [Option.eq_none_iff_forall_ne_some, ne_eq, driver_eq_some]

/-- Calling on every driver a callback that, where present, has one idempotent effect has this effect once, or not
at all. -/
theorem forDrivers_idempotent (f : Driver → State → Res) (p : Driver → Bool) (g : State → State)
    (hf : ∀ d s, f d s = .next (if p d then g s else s)) (hg : ∀ s, g (g s) = g s)
    (ds : List (Option Driver)) (s : State) :
    forDrivers f ds s = .next (if ds.any (fun o => o.any p) then g s else s) := by
  induction ds generalizing s with
  | nil => rfl
  | cons o ds ih =>
    cases o with
    | none => exact ih s
    | some d =>
      rw [forDrivers_some, hf, andThen_next, ih]
      cases hp : p d <;> simp [hp, hg]

/-! ## GET_CONFIGURATION, GET_INTERFACE and SET_INTERFACE -/

/-- GET_INTERFACE of an interface with a driver (rule R198). -/
theorem execGetInterface_registered (rcp : BitVec 5) (a : SetupArgs) (s : State) (d : Driver)
    (h : s.driver (ifaceNumber a.wIndex) = some d) : execGetInterface rcp a s = ep0Reply a.wLength [0x00#8] s := by
  rw [execGetInterface, h]

/-- GET_INTERFACE of any other interface (rule R198). -/
theorem execGetInterface_absent (rcp : BitVec 5) (a : SetupArgs) (s : State)
    (h : s.driver (ifaceNumber a.wIndex) = none) : execGetInterface rcp a s = .next s.ep0Stalled := by
  rw [execGetInterface, h, ep0Stall_eq]

/-- SET_INTERFACE of an interface with a driver (rule R199). -/
theorem execSetInterface_registered (rcp : BitVec 5) (a : SetupArgs) (s : State) (d : Driver)
    (h : s.driver (ifaceNumber a.wIndex) = some d) :
    execSetInterface rcp a s = if a.wValue ≠ 0#16 then .next s.ep0Stalled else ep0Ack s := by
  rw [execSetInterface, h, ep0Stall_eq]

/-- SET_INTERFACE of any other interface (rule R199). -/
theorem execSetInterface_absent (rcp : BitVec 5) (a : SetupArgs) (s : State)
    (h : s.driver (ifaceNumber a.wIndex) = none) : execSetInterface rcp a s = .next s.ep0Stalled := by
  rw [execSetInterface, h, ep0Stall_eq]

/-- Settles O23: one-byte answers fit EP0's packet, and the interface's driver decides between answer and STALL. -/
theorem getConfigurationAndInterface : Obligations.GetConfigurationAndInterface := by
  intro rcp a s hready
  refine ⟨ep0Reply_queued a.wLength [s.usb.configValue] s hready (by simp), fun d hd => ?_, fun hnone => ?_⟩
  · have hexec : exec (.getInterface rcp a) s = ep0Reply a.wLength [0x00#8] s :=
      execGetInterface_registered rcp a s d ((driver_eq_some _ _ _).2 hd)
    rw [hexec]
    exact ep0Reply_queued a.wLength [0x00#8] s hready (by simp)
  · exact execGetInterface_absent rcp a s ((driver_eq_none _ _).2 hnone)

/-- Settles O29: an absent driver stalls whatever wValue is; with a driver, wValue decides. -/
theorem setInterface : Obligations.SetInterface := by
  intro rcp a s hready
  refine ⟨fun d hd hzero => ?_, fun hbad => ?_⟩
  · have hexec : exec (.setInterface rcp a) s = ep0Ack s :=
      (execSetInterface_registered rcp a s d ((driver_eq_some _ _ _).2 hd)).trans (if_neg (not_not.2 hzero))
    rw [hexec]
    exact ep0Ack_queued s hready
  · cases hdrv : s.driver (ifaceNumber a.wIndex) with
    | none => exact execSetInterface_absent rcp a s hdrv
    | some d =>
      have hvalue : a.wValue ≠ 0#16 := hbad.resolve_left fun hnone => hnone d ((driver_eq_some _ _ _).1 hdrv)
      exact (execSetInterface_registered rcp a s d hdrv).trans (if_pos hvalue)

/-! ## SET_CONFIGURATION -/

/-- `s` with both bulk slots configured, or taken down for configuration 0 (rule R225). -/
def State.bulkEnabled (cfg : Byte) (s : State) : State :=
  if cfg ≠ 0#8 then
    (s.setEp 1 (configured .bulk none (some .mscTx) (some .mscRelease))).setEp 2
      (configured .bulk (some .mscRx) none (some .mscRelease))
  else disableHalf 2 .dOut (disableHalf 1 .dIn s)

/-- `msc_enable(cfg)` always completes: the bulk slots, then the session reset (rule R225). -/
theorem mscEnable_eq (cfg : Byte) (s : State) : mscEnable cfg s = .next (s.bulkEnabled cfg).requestReset := by
  unfold mscEnable State.bulkEnabled
  split
  · rfl
  · rfl

/-- Enabling the bulk slots touches the endpoint table only. -/
theorem bulkEnabled_frame (cfg : Byte) (s : State) :
    s.bulkEnabled cfg = { s with usb := { s.usb with ep := (s.bulkEnabled cfg).usb.ep } } := by
  unfold State.bulkEnabled
  split
  · rfl
  · rfl

/-- Bulk-IN after a configuration other than 0 (rules R142, R225). -/
theorem bulkEnabled_ep_in (cfg : Byte) (s : State) (h : cfg ≠ 0#8) :
    (s.bulkEnabled cfg).ep 1 = configured .bulk none (some .mscTx) (some .mscRelease) := by
  simp [State.bulkEnabled, h]

/-- Bulk-OUT after a configuration other than 0 (rules R142, R225). -/
theorem bulkEnabled_ep_out (cfg : Byte) (s : State) (h : cfg ≠ 0#8) :
    (s.bulkEnabled cfg).ep 2 = configured .bulk (some .mscRx) none (some .mscRelease) := by
  simp [State.bulkEnabled, h]

/-- Bulk-IN after configuration 0 (rule R225). -/
theorem bulkEnabled_ep_in_down (s : State) :
    (s.bulkEnabled 0#8).ep 1 = { s.ep 1 with tx := { (s.ep 1).tx with state := .disabled } } := by
  simp [State.bulkEnabled, disableHalf, State.ep_setHalf, Endpoint.withHalf, State.half, Endpoint.half]

/-- Bulk-OUT after configuration 0 (rule R225). -/
theorem bulkEnabled_ep_out_down (s : State) :
    (s.bulkEnabled 0#8).ep 2 = { s.ep 2 with rx := { (s.ep 2).rx with state := .disabled } } := by
  simp [State.bulkEnabled, disableHalf, State.ep_setHalf, Endpoint.withHalf, State.half, Endpoint.half]

/-- Enabling leaves every slot other than the bulk slots alone. -/
theorem bulkEnabled_ep_other (cfg : Byte) (s : State) (n : Fin 8) (h1 : n ≠ 1) (h2 : n ≠ 2) :
    (s.bulkEnabled cfg).ep n = s.ep n := by
  unfold State.bulkEnabled
  split
  · rw [State.ep_setEp, if_neg h2, State.ep_setEp, if_neg h1]
  · rw [disableHalf, State.ep_setHalf, if_neg h2, disableHalf, State.ep_setHalf, if_neg h1]

/-- Taking a half down twice is taking it down once. -/
theorem disableHalf_of_disabled (n : Fin 8) (d : Dir) (s : State) (h : (s.half n d).state = .disabled) :
    disableHalf n d s = s := by
  rw [disableHalf, ← h]
  exact s.setHalf_self n d

/-- A second driver's `enable` finds nothing left to do (rule R225). -/
theorem bulkEnabled_bulkEnabled (cfg : Byte) (s : State) :
    (s.bulkEnabled cfg).bulkEnabled cfg = s.bulkEnabled cfg := by
  by_cases h : cfg ≠ 0#8
  · simp only [State.bulkEnabled, if_pos h]
    rw [State.setEp_comm _ 2 1 _ _ (by decide), State.setEp_setEp, State.setEp_setEp]
  · simp only [State.bulkEnabled, if_neg h]
    rw [disableHalf_of_disabled 1 .dIn _ (by simp [disableHalf]),
      disableHalf_of_disabled 2 .dOut _ (by simp [disableHalf])]

/-- Enabling reads and writes the endpoint table only, which a session reset does not touch. -/
theorem bulkEnabled_requestReset (cfg : Byte) (s : State) :
    s.requestReset.bulkEnabled cfg = (s.bulkEnabled cfg).requestReset := by
  unfold State.bulkEnabled
  split
  · rfl
  · rfl

/-- What SET_CONFIGURATION stores in the device layer before the drivers run (rule R196). -/
def State.configStored (cfg : Byte) (s : State) : State :=
  { s with usb := { s.usb with configValue := cfg, enumState := enumAfterConfig cfg s.usb.enumState } }

/-- The state SET_CONFIGURATION acknowledges from (rules R196, R225). -/
def State.configSet (cfg : Byte) (s : State) : State :=
  if s.usb.ifdrv.any (fun o => o.any (fun d => d.enable)) then ((s.configStored cfg).bulkEnabled cfg).requestReset
  else s.configStored cfg

/-- However many drivers have an `enable`, its effect is had once, or not at all where none has (rule R196). -/
theorem forDrivers_enableDriver (cfg : Byte) (ds : List (Option Driver)) (s : State) :
    forDrivers (enableDriver cfg) ds s
      = .next (if ds.any (fun o => o.any (fun d => d.enable)) then (s.bulkEnabled cfg).requestReset else s) := by
  refine forDrivers_idempotent (enableDriver cfg) (fun d => d.enable) (fun s => (s.bulkEnabled cfg).requestReset)
    (fun d s => ?_) (fun s => ?_) ds s
  · rw [enableDriver, mscEnable_eq]
    split
    · rfl
    · rfl
  · rw [bulkEnabled_requestReset, bulkEnabled_bulkEnabled, requestReset_requestReset]

/-- SET_CONFIGURATION acknowledges once the drivers have run (rule R196). -/
theorem execSetConfiguration_eq (rcp : BitVec 5) (a : SetupArgs) (s : State) :
    execSetConfiguration rcp a s = ep0Ack (s.configSet (configField a.wValue)) :=
  congrArg (andThen · ep0Ack) (forDrivers_enableDriver _ _ _)

/-- SET_CONFIGURATION leaves EP0 and the size of packet memory alone. -/
theorem configSet_ep0Ready (cfg : Byte) (s : State) (h : s.ep0Ready) : (s.configSet cfg).ep0Ready := by
  obtain ⟨hnak, hsize⟩ := h
  unfold State.configSet
  split
  · have hep : ((s.configStored cfg).bulkEnabled cfg).ep 0 = s.ep 0 :=
      bulkEnabled_ep_other cfg _ 0 (by decide) (by decide)
    have hcfg : ((s.configStored cfg).bulkEnabled cfg).cfg = s.cfg := by
      rw [bulkEnabled_frame]
      rfl
    refine ⟨?_, hcfg ▸ hsize⟩
    rw [requestReset_half, State.half, hep]
    exact hnak
  · exact ⟨hnak, hsize⟩

/-- Settles O28: the acknowledgement follows the drivers' `enable`, whose joint effect is one driver's or none. -/
theorem setConfiguration : Obligations.SetConfiguration := by
  intro rcp a s hready cfg enabled
  obtain ⟨t, hack, hqueued⟩ := ep0Ack_queued _ (configSet_ep0Ready cfg s hready)
  refine ⟨s.configSet cfg, t, (execSetConfiguration_eq rcp a s).trans hack, hqueued, ?_⟩
  cases henabled : enabled with
  | false =>
    have hset : s.configSet cfg = s.configStored cfg := if_neg (Bool.eq_false_iff.1 henabled)
    rw [hset]
    exact ⟨rfl, fun _ _ _ => rfl, fun _ => ⟨rfl, rfl⟩, nofun, nofun⟩
  | true =>
    have hset : s.configSet cfg = ((s.configStored cfg).bulkEnabled cfg).requestReset := if_pos henabled
    rw [hset]
    refine ⟨congrArg State.requestReset (bulkEnabled_frame cfg _), fun n h1 h2 => ?_, nofun, fun _ hcfg => ?_,
      fun _ hcfg => ?_⟩
    · exact bulkEnabled_ep_other cfg _ n h1 h2
    · exact ⟨bulkEnabled_ep_in cfg _ hcfg, bulkEnabled_ep_out cfg _ hcfg⟩
    · rw [hcfg]
      exact ⟨bulkEnabled_ep_in_down _, bulkEnabled_ep_out_down _⟩

/-! ## The MSC driver's class requests -/

/-- Delegation reaches the `ctrl_req` of an interface's driver (rule R153). -/
theorem delegate_served (a : SetupArgs) (f : State → Res) (s : State) (d : Driver)
    (hd : s.driver (ifaceNumber a.wIndex) = some d) (hreq : d.ctrlReq = true) : delegate a f s = f s := by
  rw [delegate, hd]
  exact if_pos hreq

/-- GET_MAX_LUN has answered by the time the driver returns 1, so the device layer adds nothing (rules R153, R203). -/
theorem execGetMaxLun_eq (a : SetupArgs) (s : State) :
    execGetMaxLun a s = ep0Reply a.wLength [BitVec.ofNat 8 (s.scsi.lun.length - 1)] s := by
  unfold execGetMaxLun State.nLun
  cases ep0Reply a.wLength [BitVec.ofNat 8 (s.scsi.lun.length - 1)] s with
  | next t => rfl
  | fault r => rfl
  | refused r => rfl

/-- A1 FE is the key of GET_MAX_LUN (rule R111). -/
theorem execCtrlDelegateClass_getMaxLun (a : SetupArgs) (s : State) :
    execCtrlDelegateClass 1#1 0xFE#8 a s = delegate a (execGetMaxLun a) s := rfl

/-- 21 FF is the key of BULK_ONLY_RESET (rule R111). -/
theorem execCtrlDelegateClass_bulkOnlyReset (a : SetupArgs) (s : State) :
    execCtrlDelegateClass 0#1 0xFF#8 a s = delegate a (execBulkOnlyReset a) s := rfl

/-- Settles O30: the delegating instruction runs the same request where a driver serves it, and a session reset leaves
EP0 idle. -/
theorem classRequests : Obligations.ClassRequests := by
  intro a s hready served
  have hdelegate (f : State → Res) : served → delegate a f s = f s := fun ⟨d, hd, hreq⟩ =>
    delegate_served a f s d ((driver_eq_some _ _ _).2 hd) hreq
  refine ⟨fun i hi => ?_, fun i hi => ?_⟩
  · have hexec : exec i s = execGetMaxLun a s := by
      rcases hi with rfl | ⟨rfl, hserved⟩
      · rfl
      · exact (execCtrlDelegateClass_getMaxLun a s).trans (hdelegate _ hserved)
    rw [hexec, execGetMaxLun_eq]
    exact ep0Reply_queued a.wLength _ s hready (by simp)
  · have hexec : exec i s = ep0Ack s.requestReset := by
      rcases hi with rfl | ⟨rfl, hserved⟩
      · rfl
      · exact (execCtrlDelegateClass_bulkOnlyReset a s).trans (hdelegate _ hserved)
    rw [hexec]
    exact ep0Ack_queued s.requestReset hready

/-! ## SET_ADDRESS and the refused requests -/

/-- Settles O26: the acknowledgement is queued on the state that has the address recorded. -/
theorem setAddress : Obligations.SetAddress := fun _rcp a s hready =>
  ep0Ack_queued { s with usb := { s.usb with pendingAddress := some (addressField a.wValue) } } hready

/-- Settles O27: either instruction is `ep0_stall` alone. -/
theorem unsupportedRequestsStall : Obligations.UnsupportedRequestsStall := fun _rcp _bm _rq _a s =>
  ⟨congrArg Host.Outcome.next (ep0Stall_eq s), congrArg Host.Outcome.next (ep0Stall_eq s)⟩

end Sys2Proof.Machine
end

section
/-! PROOFS. The BOT sequencer's side paths (42_bot_sequencer.md): discard mode (rule R244), released halts (rule R232),
reset recovery (rules R250, R287) and the order of the Tick's flags (rule R231). -/

namespace Sys2Proof.Machine

/-! ## Discard mode -/

/-- A payload packet with no chunk wanted is discarded (rules R243, R244). -/
theorem execBulkOutDefault_discard (p : List Byte) (s : State) (hphase : s.bot.phase = .dataOut)
    (hlen : s.bot.dataLen = 0#32) : exec (.bulkOutDefault p) s = discardPacket p s := by
  change execBulkOutDefault p s = discardPacket p s
  rw [execBulkOutDefault, hphase]
  exact if_pos hlen

/-- `s` with `k` more bytes of a discarded data phase counted (rule R244). -/
def State.discarded (k : Nat) (s : State) : State :=
  { s with bot := { s.bot with dataOffset := s.bot.dataOffset + BitVec.ofNat 32 k } }

/-- A packet within the host's length is counted; the last one ends the transaction (rule R244). -/
theorem discardPacket_inBounds (p : List Byte) (s : State) (hne : p.length ≠ 0)
    (hfits : p.length ≤ (s.bot.cbw.dtl - s.bot.dataOffset).toNat) :
    discardPacket p s =
      if (s.discarded p.length).bot.dataOffset = s.bot.cbw.dtl then enterAwaitCsw (s.discarded p.length)
      else .next (armOut (s.discarded p.length)) :=
  if_neg (not_or.2 ⟨hne, Nat.not_lt.2 hfits⟩)

/-- Settles O47: the packet's bounds decide the first clause, and `data_offset` after it the other two. -/
theorem discardedPackets : Obligations.DiscardedPackets := by
  refine ⟨fun s => armOut_outArmed _, fun p s hphase hlen => ?_⟩
  rw [execBulkOutDefault_discard p s hphase hlen]
  refine ⟨fun hbad => if_pos hbad, fun hne hfits hlast hready => ?_, fun hne hfits hmore => ?_⟩
  · have hcsw : discardPacket p s = enterAwaitCsw (s.discarded p.length) :=
      (discardPacket_inBounds p s hne hfits).trans (if_pos hlast)
    rw [hcsw]
    exact enterAwaitCsw_queued (s.discarded p.length) hready
  · rw [← armOut_outArmed]
    exact (discardPacket_inBounds p s hne hfits).trans (if_neg hmore)

/-! ## Released halts -/

/-- Bulk-IN, when ready, takes the CSW; the phase and `ctx` stay (rule R232). -/
theorem sendCsw_queued (s : State) (h : s.bulkInReady) :
    ∃ t, send 1 (encodeCsw s.bot.csw) s = .next t ∧ Queued 1 (encodeCsw s.bot.csw) s t :=
  ⟨_, send_bulkIn _ s h (by simp), queued_sent s 1 0x180 _ rfl (by simp)⟩

/-- Settles O51: the first two clauses are the two guards of `bot_on_err`, an idle bulk-IN not being halted. -/
theorem deferredCsw : Obligations.DeferredCsw := by
  intro s
  refine ⟨fun hphase hout hready => ?_, fun hphase htx hready => ?_, fun hhalt hunarmed => ?_⟩
  · have hin : (s.half 1 .dIn).state ≠ .stall := by simp [hready.1]
    rw [botOnErr, if_pos ⟨hphase, hin, hout⟩]
    exact enterAwaitCsw_queued s hready
  · have hphase' : s.bot.phase ≠ .error := by simp [hphase]
    rw [botOnErr, if_neg fun h => hphase' h.1, if_pos ⟨hphase, htx, hready.1⟩]
    exact sendCsw_queued s hready
  · rw [botOnErr, if_neg hhalt, if_neg hunarmed]

/-! ## Reset recovery -/

/-- `s` with the session's flags, latches and counters cleared and the SCSI layer reset (rules R250, R287). -/
def State.sessionCleared (s : State) : State :=
  scsiReset { s with bot := { s.bot with
    rxFlag := false, txFlag := false, errFlag := false, cbw := zeroCbw, csw := zeroCsw,
    dataOffset := 0#32, dataLen := 0#32, moreData := false, resetPending := false } }

/-- `s` with a packet queued on bulk-IN dropped, nothing else changed (rule R250). -/
def State.inDropped (s : State) : State :=
  s.setHalf 1 .dIn
    { s.half 1 .dIn with state := if (s.half 1 .dIn).state = .valid then .nak else (s.half 1 .dIn).state }

/-- A half with a packet queued is not halted, so dropping the packet keeps the toggle (rules R29, R143). -/
theorem dropQueued_eq (s : State) :
    (if (s.half 1 .dIn).state = .valid then epSetState 1 .dIn .nak s else s) = s.inDropped := by
  rw [State.inDropped]
  split
  · rename_i hvalid
    simp [epSetState, toggleAfter, hvalid]
  · exact (s.setHalf_self 1 .dIn).symm

/-- Reset recovery in the terms of the statements: clear, drop, arm, and wait for a CBW (rule R250). -/
theorem botRecover_eq (s : State) : botRecover s = s.sessionCleared.inDropped.outArmed.setPhase .awaitCbw := by
  rw [← dropQueued_eq, ← armOut_outArmed]
  rfl

/-- Dropping a packet leaves bulk-OUT alone. -/
theorem inDropped_half_out (s : State) : s.inDropped.half 2 .dOut = s.half 2 .dOut := by
  simp [State.inDropped]

/-- Settles O52: arming reads bulk-OUT, which neither the clearing nor the drop has touched. -/
theorem resetRecovery : Obligations.ResetRecovery := by
  intro s
  rw [botRecover_eq, State.outArmed, inDropped_half_out]
  rfl

/-! ## The Tick's flags -/

theorem andThen_next_right (o : Res) : andThen o .next = o := by
  cases o with
  | next s => rfl
  | fault r => rfl
  | refused r => rfl

/-- Null entries of the driver table are skipped (rules R145, R162). -/
theorem forDrivers_replicate_none (f : Driver → State → Res) (k : Nat) :
    forDrivers f (List.replicate k none) = .next := by
  induction k with
  | zero => rfl
  | succ k ih => exact ih

/-- Where the MSC driver is the only driver, a Tick is its `periodic` (rules R162, R224). -/
theorem onTick_msc (s : State) (k : Nat) (hdrv : s.usb.ifdrv = some Driver.msc :: List.replicate k none) :
    onTick s = mscPeriodic s := by
  rw [onTick, hdrv, forDrivers_some, forDrivers_replicate_none, andThen_next_right]
  rfl

/-- What follows a flag that is not set starts from the same state. -/
theorem andThen_serve (flag : Bool) (clear : State → State) (action f : State → Res) (s : State) :
    andThen (serve flag clear action s) f = if flag = true then andThen (action (clear s)) f else f s := by
  cases flag with
  | false => rfl
  | true => rfl

/-- Reset recovery leaves no flag to serve (rules R231, R250). -/
theorem botRecover_flags (s : State) :
    (botRecover s).bot.errFlag = false ∧ (botRecover s).bot.rxFlag = false ∧ (botRecover s).bot.txFlag = false := by
  rw [botRecover_eq]
  exact ⟨rfl, rfl, rfl⟩

/-- Settles O53: `msc_periodic` is the chain of the statement, and after a reset its three other flags are clear. -/
theorem tickServesFlagsInOrder : Obligations.TickServesFlagsInOrder := by
  intro s k hdrv tx rx
  have hperiodic : onEvent .tick s = mscPeriodic s := onTick_msc s k hdrv
  simp only [hperiodic, mscPeriodic, andThen_serve]
  refine ⟨fun hrst => ?_, fun hrst herr => ?_, fun hrst herr => ?_⟩
  · obtain ⟨herr, hrx, htx⟩ := botRecover_flags s.clearRstFlag
    rw [if_pos hrst, andThen_next, herr, hrx, htx]
    rfl
  · rw [if_neg (Bool.eq_false_iff.1 hrst), if_pos herr]
    rfl
  · rw [if_neg (Bool.eq_false_iff.1 hrst), if_neg (Bool.eq_false_iff.1 herr)]
    rfl

end Sys2Proof.Machine
end

section
/-! PROOFS. The 6-byte SCSI commands (43_scsi_dispatch_cdb6.md): the addressed LUN (rule R290), TEST UNIT READY (rule
R291) and the acknowledged commands (rules R304, R305). -/

namespace Sys2Proof.Machine

/-! ## The addressed LUN -/

/-- A handler gets the record of the LUN the CBW latch names (rule R290). -/
theorem withLun_of_curLun (s : State) (l : Lun) (f : Lun → Res) (h : s.curLun = some l) : withLun s f = f l := by
  rw [withLun, h]

/-! ## A handler's return -/

/-- What returning a code leaves. -/
theorem ret_eq (s : State) (code : Int) : s.ret code = s.withCode code := rfl

/-! ## TEST UNIT READY -/

/-- TEST UNIT READY decides on the state of the addressed LUN alone (rule R291). -/
theorem execTestUnitReady_of_curLun (s : State) (l : Lun) (h : s.curLun = some l) :
    execTestUnitReady s =
      if l.state = .ready then .next (s.withCode 0) else .next (s.failed 0x2#4 0x3A#8 0x00#8 (-3)) := by
  rw [execTestUnitReady, withLun_of_curLun s l _ h, ret_eq, commandFailed_eq]

/-- Settles O32: the hypothesis names the addressed LUN, and the two clauses are the handler's two branches. -/
theorem testUnitReady : Obligations.TestUnitReady := by
  intro s l hlun
  have hexec := execTestUnitReady_of_curLun s l hlun
  exact ⟨fun hready => hexec.trans (if_pos hready), fun habsent => hexec.trans (if_neg habsent)⟩

/-! ## START STOP UNIT and PREVENT ALLOW MEDIUM REMOVAL -/

/-- Settles O36: each handler is the return of 0 alone. -/
theorem acknowledgedCommands : Obligations.AcknowledgedCommands := fun s =>
  ⟨congrArg Host.Outcome.next (ret_eq s 0), congrArg Host.Outcome.next (ret_eq s 0)⟩

end Sys2Proof.Machine
end

section
/-! PROOFS. The 10-byte SCSI commands that reach the medium (44_scsi_cdb10_vendor.md): the access check (rule R325),
READ(10) (rules R326, R327) and WRITE(10) (rules R327, R328). -/

namespace Sys2Proof.Machine

/-! ## The access check -/

/-- No access while the medium is not ready (rule R325). -/
theorem checkMediumAccess_notReady (l : Lun) (lba : Word32) (n : Word16) (s : State) (h : l.state ≠ .ready) :
    checkMediumAccess l lba n s = .fault .mediumAccessWhileNotPresent :=
  if_pos h

/-- No access beyond the last block (rule R325). -/
theorem checkMediumAccess_outOfRange (l : Lun) (lba : Word32) (n : Word16) (s : State) (h : l.state = .ready)
    (hr : l.capacityBlocks.toNat < lba.toNat + n.toNat) : checkMediumAccess l lba n s = .fault .lbaOutOfRange :=
  (if_neg (not_not.2 h)).trans (if_pos hr)

/-- Access to blocks of a ready medium changes nothing (rule R325). -/
theorem checkMediumAccess_inRange (l : Lun) (lba : Word32) (n : Word16) (s : State) (h : l.state = .ready)
    (hr : lba.toNat + n.toNat ≤ l.capacityBlocks.toNat) : checkMediumAccess l lba n s = .next s :=
  (if_neg (not_not.2 h)).trans (if_neg (Nat.not_lt.2 hr))

/-! ## What a handler leaves -/

/-- A chunk placed and any return code is what the statements call replied. -/
theorem replied_putChunk (code : Int) (bytes : List Byte) (s : State) (h : bytes.length ≤ 512) :
    Replied code bytes s ((putChunk bytes s).ret code) := by
  obtain ⟨hlen, hchunk, hbehind, -⟩ := replied_reply bytes s h
  exact ⟨hlen, hchunk, hbehind, rfl⟩

/-- A LUN call leaves the session alone, the CBW with its LUN number included. -/
@[simp] theorem lunCall_bot (c : LunCall) (s : State) : (lunCall c s).2.bot = s.bot := by
  obtain ⟨m, hm⟩ := lunCall_frame c s
  rw [hm]

/-! ## READ(10) -/

/-- The block is the chunk, and the code says whether another follows (rule R326). -/
theorem readBlock_replied (lba : Word32) (n : Word16) (s : State)
    (hok : (lunCall (.read s.curLunIndex (lba + s.scsi.ctx)) s).1.ok = true) :
    Replied (if s.scsi.ctx.toNat + 1 < n.toNat then 2 else 1)
      (lunCall (.read s.curLunIndex (lba + s.scsi.ctx)) s).1.block.toList
      ((lunCall (.read s.curLunIndex (lba + s.scsi.ctx)) s).2.setCtx (s.scsi.ctx + 1#32)) (readBlock lba n s) := by
  rw [readBlock, if_pos hok]
  exact replied_putChunk _ _ (State.setCtx _ _) (by simp)

/-- A read error fails the command (rule R326). -/
theorem readBlock_failed (lba : Word32) (n : Word16) (s : State)
    (herr : (lunCall (.read s.curLunIndex (lba + s.scsi.ctx)) s).1.ok = false) :
    readBlock lba n s
      = (lunCall (.read s.curLunIndex (lba + s.scsi.ctx)) s).2.failed 0x3#4 0x01#8 0x00#8 (-1) := by
  rw [readBlock, if_neg (Bool.eq_false_iff.1 herr), commandFailed_eq]

section
variable (lba : Word32) (n : Word16) (s : State) (l : Lun) (hlun : s.curLun = some l)
include hlun

/-- A zero length reads nothing (rule R327). -/
theorem execRead10_zeroLength (hn : n = 0#16) : execRead10 lba n s = .next (s.withCode 0) := by
  rw [execRead10, withLun_of_curLun s l _ hlun, if_pos hn, ret_eq]

/-- The first block is read if the access check lets it (rules R325, R326). -/
theorem execRead10_firstBlock (hn : n ≠ 0#16) (hctx : s.scsi.ctx = 0#32) :
    execRead10 lba n s = andThen (checkMediumAccess l lba n s) fun s => .next (readBlock lba n s) := by
  rw [execRead10, withLun_of_curLun s l _ hlun, if_neg hn, if_pos hctx]

/-- A later block is read without the access check (rules R325, R326). -/
theorem execRead10_laterBlock (hn : n ≠ 0#16) (hctx : s.scsi.ctx ≠ 0#32) :
    execRead10 lba n s = .next (readBlock lba n s) := by
  rw [execRead10, withLun_of_curLun s l _ hlun, if_neg hn, if_neg hctx, andThen_next]

/-- A block is read where the access check passes or is not made (rules R325, R326). -/
theorem execRead10_readBlock (hn : n ≠ 0#16)
    (haccess : s.scsi.ctx = 0#32 → l.state = .ready ∧ lba.toNat + n.toNat ≤ l.capacityBlocks.toNat) :
    execRead10 lba n s = .next (readBlock lba n s) := by
  by_cases hctx : s.scsi.ctx = 0#32
  · obtain ⟨hready, hrange⟩ := haccess hctx
    rw [execRead10_firstBlock lba n s l hlun hn hctx, checkMediumAccess_inRange l lba n s hready hrange, andThen_next]
  · exact execRead10_laterBlock lba n s l hlun hn hctx

end

/-- Settles O37: the access check decides the two faults, and the medium's answer what a block read leaves. -/
theorem read10 : Obligations.Read10 := by
  intro lba n s l hlun
  refine ⟨execRead10_zeroLength lba n s l hlun, fun hn hctx habsent => ?_, fun hn hctx hready hrange => ?_,
    fun hn haccess => ?_⟩
  · refine (execRead10_firstBlock lba n s l hlun hn hctx).trans ?_
    rw [checkMediumAccess_notReady l lba n s habsent, andThen_fault]
  · refine (execRead10_firstBlock lba n s l hlun hn hctx).trans ?_
    rw [checkMediumAccess_outOfRange l lba n s hready hrange, andThen_fault]
  · have hexec := execRead10_readBlock lba n s l hlun hn haccess
    refine ⟨fun hok => ⟨_, hexec, readBlock_replied lba n s hok⟩, fun herr => hexec.trans ?_⟩
    exact congrArg Host.Outcome.next (readBlock_failed lba n s herr)

/-! ## WRITE(10) -/

/-- A write-side failure leaves WRITE ERROR and nothing else (rule R328). -/
theorem writeError_eq (s : State) : writeError s = s.failed 0x3#4 0x0C#8 0x00#8 (-1) := commandFailed_eq _ _ _ _ s

/-- The preload's answer decides between the request for the first block and a failed command (rule R328). -/
theorem writePreload_eq (lba : Word32) (n : Word16) (s : State) :
    writePreload lba n s =
      if (lunCall (.preload s.curLunIndex lba) s).1.ok then
        (lunCall (.preload s.curLunIndex lba) s).2.withCode (if 1 < n.toNat then 3 else 4)
      else (lunCall (.preload s.curLunIndex lba) s).2.failed 0x3#4 0x0C#8 0x00#8 (-1) := by
  simp only [writePreload, ret_eq, writeError_eq]

/-- The completion's answer decides between success and a failed command (rule R328). -/
theorem writeComplete_eq (s : State) :
    writeComplete s =
      if (lunCall (.complete s.curLunIndex) s).1.ok = false then
        (lunCall (.complete s.curLunIndex) s).2.failed 0x3#4 0x0C#8 0x00#8 (-1)
      else (lunCall (.complete s.curLunIndex) s).2.withCode 0 := by
  cases hok : (lunCall (.complete s.curLunIndex) s).1.ok with
  | false => simp [writeComplete, hok, writeError_eq]
  | true => simp [writeComplete, hok, ret_eq]

/-- The medium's answer to the block in the data buffer, and the state with that block not yet counted (rule R328). -/
def State.blockWritten (lba : Word32) (s : State) : LunAnswer × State :=
  lunCall (.write s.curLunIndex (lba + s.scsi.ctx) (Mem.readRange s.bot.dataBuf 0 512)) s

/-- A write error, then the next block, then the completion (rule R328). -/
theorem writeBlock_eq (lba : Word32) (n : Word16) (s : State) :
    writeBlock lba n s =
      if (s.blockWritten lba).1.ok = false then (s.blockWritten lba).2.failed 0x3#4 0x0C#8 0x00#8 (-1)
      else if s.scsi.ctx.toNat + 1 < n.toNat then
        ((s.blockWritten lba).2.setCtx (s.scsi.ctx + 1#32)).withCode (if s.scsi.ctx.toNat + 2 < n.toNat then 3 else 4)
      else writeComplete ((s.blockWritten lba).2.setCtx (s.scsi.ctx + 1#32)) := by
  rw [writeBlock, ← State.blockWritten]
  cases (s.blockWritten lba).1.ok with
  | false => simp [writeError_eq]
  | true => simp [ret_eq]

/-- Counting a written block leaves the addressed LUN (rule R290). -/
theorem blockWritten_curLunIndex (lba v : Word32) (s : State) :
    ((s.blockWritten lba).2.setCtx v).curLunIndex = s.curLunIndex := by
  simp [State.curLunIndex, State.blockWritten]

section
variable (lba : Word32) (n : Word16) (s : State) (l : Lun) (hlun : s.curLun = some l)
include hlun

/-- Write protection comes first (rule R328). -/
theorem execWrite10_protected (hin : s.scsi.inLen = 0#32) (hw : l.writable = false) :
    execWrite10 lba n s = .next (s.failed 0x7#4 0x27#8 0x00#8 (-3)) := by
  rw [execWrite10, withLun_of_curLun s l _ hlun, if_pos hin, if_pos hw, commandFailed_eq]

/-- A zero length writes nothing (rule R327). -/
theorem execWrite10_zeroLength (hin : s.scsi.inLen = 0#32) (hw : l.writable = true) (hn : n = 0#16) :
    execWrite10 lba n s = .next (s.withCode 0) := by
  rw [execWrite10, withLun_of_curLun s l _ hlun, if_pos hin, if_neg (Bool.ne_false_iff.2 hw), if_pos hn, ret_eq]

/-- The preload is called if the access check lets it (rules R325, R328). -/
theorem execWrite10_preload (hin : s.scsi.inLen = 0#32) (hw : l.writable = true) (hn : n ≠ 0#16) :
    execWrite10 lba n s = andThen (checkMediumAccess l lba n s) fun s => .next (writePreload lba n s) := by
  rw [execWrite10, withLun_of_curLun s l _ hlun, if_pos hin, if_neg (Bool.ne_false_iff.2 hw), if_neg hn]

/-- With a block in the data buffer nothing is checked again (rule R328). -/
theorem execWrite10_writeBlock (hin : s.scsi.inLen ≠ 0#32) : execWrite10 lba n s = .next (writeBlock lba n s) := by
  rw [execWrite10, withLun_of_curLun s l _ hlun, if_neg hin]

end

/-- Settles O38: the first invocation is its guards in order, then the preload; a later one is `writeBlock`, whose
completion goes to the LUN the block went to. -/
theorem write10 : Obligations.Write10 := by
  intro lba n s l hlun i lun
  refine ⟨fun hin => ⟨execWrite10_protected lba n s l hlun hin, execWrite10_zeroLength lba n s l hlun hin, ?_⟩,
    fun hin => ?_⟩
  · have hpreload := execWrite10_preload lba n s l hlun hin
    refine ⟨fun hw hn habsent => (hpreload hw hn).trans ?_, fun hw hn hready hrange => (hpreload hw hn).trans ?_,
      fun hw hn hready hrange => (hpreload hw hn).trans ?_⟩
    · rw [checkMediumAccess_notReady l lba n s habsent, andThen_fault]
    · rw [checkMediumAccess_outOfRange l lba n s hready hrange, andThen_fault]
    · rw [checkMediumAccess_inRange l lba n s hready hrange, andThen_next]
      exact congrArg Host.Outcome.next (writePreload_eq lba n s)
  · refine (execWrite10_writeBlock lba n s l hlun hin).trans (congrArg Host.Outcome.next ?_)
    rw [writeBlock_eq, writeComplete_eq, blockWritten_curLunIndex]
    rfl

end Sys2Proof.Machine
end

section
/-! PROOFS. The encoding (30_encoding.md): decoding inverts encoding, format by format (rules R91 to R115). -/

namespace Sys2Proof

/-! ## First-level rows -/

/-- The key of a delegated request: not a standard type, for an interface (rules R110, R149). -/
def delegatedKey (bm : Byte) : Prop := topBits bm ≠ 0b100#3 ∧ topBits bm ≠ 0b000#3 ∧ rcpBits bm = 0x01#5

/-- A built setup packet goes through first-level decode. -/
theorem decodeAs_setup_encodeSetup (bm rq : Byte) (a : SetupArgs) :
    decodeAs .setup (encodeSetup bm rq a) = .ok (decodeFirst ⟨bm, rq, a.wValue, a.wIndex, a.wLength⟩) := by
  simp [decodeAs]

/-- A standard request from the device is decoded by bRequest (rule R110). -/
theorem decodeFirst_in (rcp : BitVec 5) (rq : Byte) (a : SetupArgs) :
    decodeFirst ⟨0b100#3 ++ rcp, rq, a.wValue, a.wIndex, a.wLength⟩ =
      if rq = 0x00#8 then .getStatus rcp a
      else if rq = 0x06#8 then .getDescriptor rcp a
      else if rq = 0x08#8 then .getConfiguration rcp a
      else if rq = 0x0A#8 then .getInterface rcp a
      else .setupDefault (0b100#3 ++ rcp) rq a := by
  simp only [decodeFirst, topBits_append, rcpBits_append, if_true, Setup.args]

/-- A standard request to the device is decoded by bRequest (rule R110). -/
theorem decodeFirst_out (rcp : BitVec 5) (rq : Byte) (a : SetupArgs) :
    decodeFirst ⟨0b000#3 ++ rcp, rq, a.wValue, a.wIndex, a.wLength⟩ =
      if rq = 0x01#8 then .clearFeature rcp a
      else if rq = 0x03#8 then .setFeature rcp a
      else if rq = 0x05#8 then .setAddress rcp a
      else if rq = 0x07#8 then .setDescriptor rcp a
      else if rq = 0x09#8 then .setConfiguration rcp a
      else if rq = 0x0B#8 then .setInterface rcp a
      else .setupDefault (0b000#3 ++ rcp) rq a := by
  simp only [decodeFirst, topBits_append, rcpBits_append, if_true, Setup.args]
  rfl

/-- A delegated request is decoded by its type (rule R110). -/
theorem decodeFirst_delegated (bm rq : Byte) (a : SetupArgs) (h : delegatedKey bm) :
    decodeFirst ⟨bm, rq, a.wValue, a.wIndex, a.wLength⟩ =
      if bm.extractLsb' 5 2 = 0b01#2 then .ctrlDelegateClass (bm.extractLsb' 7 1) rq a
      else if bm.extractLsb' 5 2 = 0b10#2 then .ctrlDelegateVendor (bm.extractLsb' 7 1) rq a
      else .ctrlDelegateReserved (bm.extractLsb' 7 1) rq a := by
  obtain ⟨hin, hout, hrcp⟩ := h
  simp only [decodeFirst, if_neg hin, if_neg hout, if_pos hrcp, Setup.args]

/-- What no other SETUP row matches is the default row (rule R116). -/
theorem decodeFirst_default (bm rq : Byte) (a : SetupArgs) (h : setupDefaultKey bm rq = true) :
    decodeFirst ⟨bm, rq, a.wValue, a.wIndex, a.wLength⟩ = .setupDefault bm rq a := by
  unfold setupDefaultKey at h
  unfold decodeFirst
  split at h
  · simp_all [Setup.args]
  · split at h
    · simp_all [Setup.args]
    · simp_all [Setup.args]

/-- The fields of a bmRequestType built for an interface (rule R92). -/
theorem iface_fields (dir : BitVec 1) (type : BitVec 2) :
    (dir ++ type ++ 0b00001#5 : Byte).extractLsb' 5 2 = type ∧ (dir ++ type ++ 0b00001#5 : Byte).extractLsb' 7 1 = dir
      ∧ (type ≠ 0#2 → delegatedKey (dir ++ type ++ 0b00001#5)) := by
  unfold delegatedKey
  revert dir type
  decide

/-- A request of a non-standard type for an interface is decoded by its type (rule R110). -/
theorem decodeAs_setup_encodeIface (type : BitVec 2) (dir : BitVec 1) (rq : Byte) (a : SetupArgs) (h : type ≠ 0#2) :
    decodeAs .setup (encodeIface type dir rq a) = .ok (
      if type = 0b01#2 then .ctrlDelegateClass dir rq a
      else if type = 0b10#2 then .ctrlDelegateVendor dir rq a
      else .ctrlDelegateReserved dir rq a) := by
  obtain ⟨htype, hdir, hkey⟩ := iface_fields dir type
  rw [encodeIface, decodeAs_setup_encodeSetup, decodeFirst_delegated _ _ _ (hkey h), htype, hdir]

/-! ## What each decoder answers -/

/-- A setup packet is its tuple, and the tuple is the packet's (rule R91). -/
theorem decodeSetup_eq_some (p : List Byte) (x : Setup) :
    decodeSetup p = some x ↔ p = encodeSetup x.bmRequestType x.bRequest x.args := by
  constructor
  · intro h
    have hlen : p.length = 8 := by_contra fun hlen => by simp [(decodeSetup_eq_none p).2 hlen] at h
    obtain ⟨b0, b1, b2, b3, b4, b5, b6, b7, rfl⟩ : ∃ b0 b1 b2 b3 b4 b5 b6 b7, p = [b0, b1, b2, b3, b4, b5, b6, b7] := by
      match p, hlen with
      | [b0, b1, b2, b3, b4, b5, b6, b7], _ => exact ⟨b0, b1, b2, b3, b4, b5, b6, b7, rfl⟩
    simp only [decodeSetup, hlen, if_true, Option.some.injEq] at h
    subst h
    simp [encodeSetup, putLe16, Setup.args, le16, byteAt]
  · rintro rfl
    exact decodeSetup_encodeSetup _ _ _

/-- What a SETUP packet decodes to at the first level (rule R110). -/
theorem decodeAs_setup_eq_ok (p : List Byte) (i : Instr) :
    decodeAs .setup p = .ok i ↔ ∃ x, decodeSetup p = some x ∧ i = decodeFirst x := by
  cases hp : decodeSetup p with
  | none => simp [decodeAs, hp]
  | some x => simp [decodeAs, hp, eq_comm]

/-- What is not delegated is refused by the MSC driver's format (rule R115). -/
theorem decodeAs_msc_not_delegated (p : List Byte) (x : Setup) (hp : decodeSetup p = some x)
    (hkey : ¬ delegatedKey x.bmRequestType) : decodeAs .msc p = .error (.wrongFirstLevel .msc) := by
  simp only [decodeAs, hp, decodeFirst]
  by_cases hin : topBits x.bmRequestType = 0b100#3
  · simp only [if_pos hin]
    split_ifs <;> rfl
  · by_cases hout : topBits x.bmRequestType = 0b000#3
    · simp only [if_neg hin, if_pos hout]
      split_ifs <;> rfl
    · have hrcp : ¬ rcpBits x.bmRequestType = 0x01#5 := fun hrcp => hkey ⟨hin, hout, hrcp⟩
      simp only [if_neg hin, if_neg hout, if_neg hrcp]

/-- The MSC driver reads exactly the delegated packets (rules R111, R115). -/
theorem decodeAs_msc_eq_ok (p : List Byte) (i : Instr) :
    decodeAs .msc p = .ok i ↔
      ∃ x, decodeSetup p = some x ∧ delegatedKey x.bmRequestType ∧ i = decodeMsc x.bmRequestType x.bRequest x.args := by
  cases hp : decodeSetup p with
  | none => simp [decodeAs, hp]
  | some x =>
    simp only [Option.some.injEq, exists_eq_left']
    by_cases hkey : delegatedKey x.bmRequestType
    · have hrow : decodeFirst x = _ := decodeFirst_delegated x.bmRequestType x.bRequest x.args hkey
      simp only [decodeAs, hp, hrow]
      split_ifs <;> simp [hkey, eq_comm]
    · simp [decodeAs_msc_not_delegated p x hp hkey, hkey]

/-- The second level of GET_DESCRIPTOR reads exactly its first-level row's packets (rules R106, R115). -/
theorem decodeAs_getDescriptor_eq_ok (p : List Byte) (i : Instr) :
    decodeAs .getDescriptor p = .ok i ↔
      ∃ rcp a, decodeAs .setup p = .ok (.getDescriptor rcp a) ∧ i = decodeDescriptor rcp a := by
  cases hp : decodeSetup p with
  | none => simp [decodeAs, hp]
  | some x =>
    simp only [decodeAs, hp]
    split
    · simp_all [eq_comm]
    · simp_all

/-- The second level of GET_STATUS reads exactly its first-level row's packets (rule R115). -/
theorem decodeAs_getStatus_eq_ok (p : List Byte) (i : Instr) :
    decodeAs .getStatus p = .ok i ↔
      ∃ rcp a, decodeAs .setup p = .ok (.getStatus rcp a) ∧ i = decodeStatus rcp a := by
  cases hp : decodeSetup p with
  | none => simp [decodeAs, hp]
  | some x =>
    simp only [decodeAs, hp]
    split
    · simp_all [eq_comm]
    · simp_all

/-- The second level of CLEAR_FEATURE reads exactly its first-level row's packets (rule R115). -/
theorem decodeAs_clearFeature_eq_ok (p : List Byte) (i : Instr) :
    decodeAs .clearFeature p = .ok i ↔
      ∃ rcp a, decodeAs .setup p = .ok (.clearFeature rcp a) ∧ i = decodeClearFeature rcp a := by
  cases hp : decodeSetup p with
  | none => simp [decodeAs, hp]
  | some x =>
    simp only [decodeAs, hp]
    split
    · simp_all [eq_comm]
    · simp_all

/-- The second level of SET_FEATURE reads exactly its first-level row's packets (rule R115). -/
theorem decodeAs_setFeature_eq_ok (p : List Byte) (i : Instr) :
    decodeAs .setFeature p = .ok i ↔
      ∃ rcp a, decodeAs .setup p = .ok (.setFeature rcp a) ∧ i = decodeSetFeature rcp a := by
  cases hp : decodeSetup p with
  | none => simp [decodeAs, hp]
  | some x =>
    simp only [decodeAs, hp]
    split
    · simp_all [eq_comm]
    · simp_all

/-! ## Decoding inverts encoding -/

/-- A standard request from the device is decoded back by its first-level row (rule R110). -/
theorem decodeAs_setup_encodeIn (rcp : BitVec 5) (rq : Byte) (a : SetupArgs) :
    decodeAs .setup (encodeIn rq rcp a) = .ok (
      if rq = 0x00#8 then .getStatus rcp a
      else if rq = 0x06#8 then .getDescriptor rcp a
      else if rq = 0x08#8 then .getConfiguration rcp a
      else if rq = 0x0A#8 then .getInterface rcp a
      else .setupDefault (0b100#3 ++ rcp) rq a) := by
  rw [encodeIn, decodeAs_setup_encodeSetup, decodeFirst_in]

/-- A standard request to the device is decoded back by its first-level row (rule R110). -/
theorem decodeAs_setup_encodeOut (rcp : BitVec 5) (rq : Byte) (a : SetupArgs) :
    decodeAs .setup (encodeOut rq rcp a) = .ok (
      if rq = 0x01#8 then .clearFeature rcp a
      else if rq = 0x03#8 then .setFeature rcp a
      else if rq = 0x05#8 then .setAddress rcp a
      else if rq = 0x07#8 then .setDescriptor rcp a
      else if rq = 0x09#8 then .setConfiguration rcp a
      else if rq = 0x0B#8 then .setInterface rcp a
      else .setupDefault (0b000#3 ++ rcp) rq a) := by
  rw [encodeOut, decodeAs_setup_encodeSetup, decodeFirst_out]

/-- A delegated packet is read by the MSC driver (rule R111). -/
theorem decodeAs_msc_encodeSetup (bm rq : Byte) (a : SetupArgs) (h : delegatedKey bm) :
    decodeAs .msc (encodeSetup bm rq a) = .ok (decodeMsc bm rq a) :=
  (decodeAs_msc_eq_ok _ _).2 ⟨_, decodeSetup_encodeSetup bm rq a, h, rfl⟩

/-- A GET_DESCRIPTOR packet is decoded by its type (rule R106). -/
theorem decodeAs_encodeDescriptor (rcp : BitVec 5) (type index : Byte) (wIndex wLength : Word16) :
    decodeAs .getDescriptor (encodeDescriptor rcp type index wIndex wLength) = .ok (
      if type = 0x01#8 then .getDescriptorDevice rcp index wIndex wLength
      else if type = 0x02#8 then .getDescriptorConfiguration rcp index wIndex wLength
      else if type = 0x03#8 then .getDescriptorString rcp index wIndex wLength
      else if type = 0x06#8 then .getDescriptorDeviceQualifier rcp index wIndex wLength
      else .getDescriptorDefault rcp type index wIndex wLength) := by
  refine (decodeAs_getDescriptor_eq_ok _ _).2 ⟨rcp, ⟨type ++ index, wIndex, wLength⟩, ?_, ?_⟩
  · exact decodeAs_setup_encodeIn rcp 0x06#8 _
  · simp only [decodeDescriptor, high_byte, low_byte]

/-- A GET_STATUS packet is decoded by its recipient. -/
theorem decodeAs_getStatus_encodeIn (rcp : BitVec 5) (a : SetupArgs) :
    decodeAs .getStatus (encodeIn 0x00#8 rcp a) = .ok (decodeStatus rcp a) :=
  (decodeAs_getStatus_eq_ok _ _).2 ⟨rcp, a, decodeAs_setup_encodeIn rcp 0x00#8 a, rfl⟩

/-- A CLEAR_FEATURE packet is decoded by its recipient. -/
theorem decodeAs_clearFeature_encodeOut (rcp : BitVec 5) (a : SetupArgs) :
    decodeAs .clearFeature (encodeOut 0x01#8 rcp a) = .ok (decodeClearFeature rcp a) :=
  (decodeAs_clearFeature_eq_ok _ _).2 ⟨rcp, a, decodeAs_setup_encodeOut rcp 0x01#8 a, rfl⟩

/-- A SET_FEATURE packet is decoded by its recipient. -/
theorem decodeAs_setFeature_encodeOut (rcp : BitVec 5) (a : SetupArgs) :
    decodeAs .setFeature (encodeOut 0x03#8 rcp a) = .ok (decodeSetFeature rcp a) :=
  (decodeAs_setFeature_eq_ok _ _).2 ⟨rcp, a, decodeAs_setup_encodeOut rcp 0x03#8 a, rfl⟩

/-- The low half of a byte, zero-extended. -/
theorem and_lowHalf (b : Byte) : b &&& 0x0F#8 = 0#4 ++ b.extractLsb' 0 4 := by
  apply BitVec.eq_of_getLsbD_eq
  intro i hi
  simp only [BitVec.getLsbD_and, BitVec.getLsbD_append, BitVec.getLsbD_extractLsb']
  interval_cases i <;> simp

/-- Reading a CBW's bytes back gives the CBW, its block having 16 bytes and its LUN 4 bits (rule R94). -/
theorem decodeCbw_encodeCbw (c : Cbw) (hlun : c.lun &&& 0x0F#8 = c.lun) (hcb : c.cb.length = 16) :
    decodeCbw (encodeCbw c) = c := by
  obtain ⟨signature, tag, dtl, flags, lun, cbLength, cb⟩ := c
  have htake : cb.take 16 = cb := List.take_of_length_le (by simp at hcb; omega)
  simp only at hlun
  simp only [decodeCbw, encodeCbw, putLe32, le32, byteAt, List.cons_append, List.nil_append, List.getD_cons_succ,
    List.getD_cons_zero, bytes_word32, List.drop_succ_cons, List.drop_zero, htake, hlun]

/-- The 31 bytes of a CBW are decoded back, its reserved bits being zero (rules R94, R113). -/
theorem decodeBulkOut_encodeCbw (c : Cbw) (h : (Instr.cbw c).wf = true) : decodeBulkOut (encodeCbw c) = .cbw c := by
  simp only [Instr.wf, Bool.and_eq_true, beq_iff_eq] at h
  obtain ⟨⟨hsignature, hlun⟩, hcb⟩ := h
  have hlun' : c.lun &&& 0x0F#8 = c.lun := by
    rw [and_lowHalf, ← hlun]
    exact append_extract c.lun 0 4 4 |>.trans (by simp)
  have hdecode := decodeCbw_encodeCbw c hlun' hcb
  have hlen : (encodeCbw c).length = 31 := by simp [encodeCbw, putLe32, hcb]
  have hsig : le32 (encodeCbw c) 0 = cbwSignature := (congrArg Cbw.signature hdecode).trans hsignature
  rw [decodeBulkOut, if_pos ⟨hlen, hsig⟩, hdecode]

/-- A command block is decoded by byte 0 if it has 16 bytes (rule R114). -/
theorem decodeAs_cdb (cb : List Byte) (h : cb.length = 16) : decodeAs .cdb cb = .ok (decodeCdb cb) := by
  simp [decodeAs, h]

/-- A bulk-OUT packet is decoded if it has at most 64 bytes (rules R14, R113). -/
theorem decodeAs_bulkOut (p : List Byte) (h : p.length ≤ 64) : decodeAs .bulkOut p = .ok (decodeBulkOut p) := by
  simp [decodeAs, h]

/-- The length of a CBW (rule R94). -/
theorem encodeCbw_length (c : Cbw) (h : (Instr.cbw c).wf = true) : (encodeCbw c).length = 31 :=
  (Laws.EncodeLength.cbw c h).2 c rfl

/-- A part of the upper one of two joined fields. -/
theorem extract_append_above {m n : Nat} (x : BitVec m) (y : BitVec n) (k l : Nat) :
    (x ++ y).extractLsb' (n + k) l = x.extractLsb' k l := by
  apply BitVec.eq_of_getLsbD_eq
  intro i hi
  have hi' : ¬ n + k + i < n := by omega
  have hk : n + k + i - n = k + i := by omega
  simp [BitVec.getLsbD_append, hi, hi', hk]

/-- `putLe32` gives back the four bytes that `le32` assembled (rule R10). -/
theorem le32_eq_iff (b0 b1 b2 b3 : Byte) (rest : List Byte) (v : Word32) :
    le32 (b0 :: b1 :: b2 :: b3 :: rest) 0 = v ↔ [b0, b1, b2, b3] = putLe32 v := by
  constructor
  · rintro rfl
    have h0 : (b3 ++ b2 ++ b1 ++ b0 : Word32).extractLsb' 0 8 = b0 := extract_append_low (b3 ++ b2 ++ b1) b0
    have h1 : (b3 ++ b2 ++ b1 ++ b0 : Word32).extractLsb' 8 8 = b1 :=
      (extract_append_above (b3 ++ b2 ++ b1) b0 0 8).trans (extract_append_low (b3 ++ b2) b1)
    have h2 : (b3 ++ b2 ++ b1 ++ b0 : Word32).extractLsb' 16 8 = b2 :=
      (extract_append_above (b3 ++ b2 ++ b1) b0 8 8).trans
        ((extract_append_above (b3 ++ b2) b1 0 8).trans (low_byte b3 b2))
    have h3 : (b3 ++ b2 ++ b1 ++ b0 : Word32).extractLsb' 24 8 = b3 :=
      (extract_append_above (b3 ++ b2 ++ b1) b0 16 8).trans
        ((extract_append_above (b3 ++ b2) b1 8 8).trans (high_byte b3 b2))
    simp only [putLe32]
    exact congrArg₂ List.cons h0.symm
      (congrArg₂ List.cons h1.symm (congrArg₂ List.cons h2.symm (congrArg₂ List.cons h3.symm rfl)))
  · intro h
    simp only [putLe32, List.cons.injEq, and_true] at h
    obtain ⟨rfl, rfl, rfl, rfl⟩ := h
    exact bytes_word32 v

/-- A packet begins with a CBW's signature exactly if its first four bytes spell it (rules R7, R94). -/
theorem signature_iff (p : List Byte) (h : 4 ≤ p.length) :
    le32 p 0 = cbwSignature ↔ p.take 4 = [0x55#8, 0x53#8, 0x42#8, 0x43#8] := by
  match p, h with
  | b0 :: b1 :: b2 :: b3 :: rest, _ => exact le32_eq_iff b0 b1 b2 b3 rest cbwSignature

/-- What is no CBW is the default row's (rules R113, R117). -/
theorem decodeBulkOut_default (p : List Byte) (h : (Instr.bulkOutDefault p).wf = true) :
    decodeBulkOut p = .bulkOutDefault p := by
  simp only [Instr.wf, Bool.and_eq_true, decide_eq_true_eq, Bool.not_eq_true', Bool.and_eq_false_imp, beq_iff_eq,
    beq_eq_false_iff_ne] at h
  refine if_neg fun ⟨hlen, hsig⟩ => h.2 hlen ?_
  exact (signature_iff p (by omega)).1 hsig

theorem byteAt_zero_eq_headD (p : List Byte) : byteAt p 0 = p.headD 0#8 := by
  cases p with
  | nil => rfl
  | cons b p => rfl

/-- A command block of the vendor groups has the vendor row's meaning: no other row's code lies in them (rule R114). -/
theorem decodeCdb_vendor (cb : List Byte) (h : (byteAt cb 0).extractLsb' 6 2 = 0b11#2) : decodeCdb cb = .vendor cb := by
  have hne (x : Byte) (hx : x.extractLsb' 6 2 ≠ 0b11#2) : ¬ byteAt cb 0 = x := fun heq => hx (heq ▸ h)
  simp only [decodeCdb, if_neg (hne 0x00#8 (by decide)), if_neg (hne 0x03#8 (by decide)),
    if_neg (hne 0x12#8 (by decide)), if_neg (hne 0x1A#8 (by decide)), if_neg (hne 0x1B#8 (by decide)),
    if_neg (hne 0x1E#8 (by decide)), if_neg (hne 0x23#8 (by decide)), if_neg (hne 0x25#8 (by decide)),
    if_neg (hne 0x28#8 (by decide)), if_neg (hne 0x2A#8 (by decide)), if_neg (hne 0x3B#8 (by decide)),
    if_neg (hne 0x3C#8 (by decide)), if_pos h]

/-- What the default row leaves to the others: twelve operation codes and the vendor groups (rules R114, R118). -/
theorem cdbDefaultKey_iff (op : Byte) :
    cdbDefaultKey op = true ↔
      op ≠ 0x00#8 ∧ op ≠ 0x03#8 ∧ op ≠ 0x12#8 ∧ op ≠ 0x1A#8 ∧ op ≠ 0x1B#8 ∧ op ≠ 0x1E#8 ∧ op ≠ 0x23#8 ∧ op ≠ 0x25#8
        ∧ op ≠ 0x28#8 ∧ op ≠ 0x2A#8 ∧ op ≠ 0x3B#8 ∧ op ≠ 0x3C#8 ∧ op.extractLsb' 6 2 ≠ 0b11#2 := by
  simp [cdbDefaultKey, and_assoc]

/-- An operation code of no other row has the default row's meaning (rules R114, R118). -/
theorem decodeCdb_default (cb : List Byte) (h : cdbDefaultKey (byteAt cb 0) = true) :
    decodeCdb cb = .cdbDefault (byteAt cb 0) := by
  simp [decodeCdb, (cdbDefaultKey_iff _).1 h]

/-- Settles O1: format by format, the encoder builds the key that the decoder's row tests for. -/
theorem decodeInvertsEncode : Obligations.DecodeInvertsEncode := by
  intro i hwf
  cases i with
  | getStatus rcp a => exact decodeAs_setup_encodeIn rcp 0x00#8 a
  | getDescriptor rcp a => exact decodeAs_setup_encodeIn rcp 0x06#8 a
  | getConfiguration rcp a => exact decodeAs_setup_encodeIn rcp 0x08#8 a
  | getInterface rcp a => exact decodeAs_setup_encodeIn rcp 0x0A#8 a
  | clearFeature rcp a => exact decodeAs_setup_encodeOut rcp 0x01#8 a
  | setFeature rcp a => exact decodeAs_setup_encodeOut rcp 0x03#8 a
  | setAddress rcp a => exact decodeAs_setup_encodeOut rcp 0x05#8 a
  | setDescriptor rcp a => exact decodeAs_setup_encodeOut rcp 0x07#8 a
  | setConfiguration rcp a => exact decodeAs_setup_encodeOut rcp 0x09#8 a
  | setInterface rcp a => exact decodeAs_setup_encodeOut rcp 0x0B#8 a
  | ctrlDelegateClass dir rq a => exact decodeAs_setup_encodeIface 0b01#2 dir rq a (by decide)
  | ctrlDelegateVendor dir rq a => exact decodeAs_setup_encodeIface 0b10#2 dir rq a (by decide)
  | ctrlDelegateReserved dir rq a => exact decodeAs_setup_encodeIface 0b11#2 dir rq a (by decide)
  | setupDefault bm rq a =>
    exact (decodeAs_setup_encodeSetup bm rq a).trans (congrArg Except.ok (decodeFirst_default bm rq a hwf))
  | getMaxLun a => exact decodeAs_msc_encodeSetup 0xA1#8 0xFE#8 a (by unfold delegatedKey; decide)
  | bulkOnlyReset a => exact decodeAs_msc_encodeSetup 0x21#8 0xFF#8 a (by unfold delegatedKey; decide)
  | mscDefault bm rq a =>
    simp only [Instr.wf, mscDefaultKey, Bool.and_eq_true, bne_iff_ne, beq_iff_eq, Bool.not_eq_true',
      Bool.and_eq_false_imp, beq_eq_false_iff_ne] at hwf
    obtain ⟨⟨⟨⟨hin, hout⟩, hrcp⟩, hlun⟩, hreset⟩ := hwf
    have hrow : decodeMsc bm rq a = .mscDefault bm rq a := by
      rw [decodeMsc, if_neg fun h => hlun h.1 h.2, if_neg fun h => hreset h.1 h.2]
    exact (decodeAs_msc_encodeSetup bm rq a ⟨hin, hout, hrcp⟩).trans (congrArg Except.ok hrow)
  | getDescriptorDevice rcp index wIndex wLength => exact decodeAs_encodeDescriptor rcp 0x01#8 index wIndex wLength
  | getDescriptorConfiguration rcp index wIndex wLength =>
    exact decodeAs_encodeDescriptor rcp 0x02#8 index wIndex wLength
  | getDescriptorString rcp index wIndex wLength => exact decodeAs_encodeDescriptor rcp 0x03#8 index wIndex wLength
  | getDescriptorDeviceQualifier rcp index wIndex wLength =>
    exact decodeAs_encodeDescriptor rcp 0x06#8 index wIndex wLength
  | getDescriptorDefault rcp type index wIndex wLength =>
    simp only [Instr.wf, List.contains_cons, List.contains_nil, Bool.or_false, Bool.not_eq_true', Bool.or_eq_false_iff,
      beq_eq_false_iff_ne] at hwf
    obtain ⟨h1, h2, h3, h6⟩ := hwf
    refine (decodeAs_encodeDescriptor rcp type index wIndex wLength).trans ?_
    rw [if_neg h1, if_neg h2, if_neg h3, if_neg h6]
  | getStatusDevice a => exact decodeAs_getStatus_encodeIn 0x00#5 a
  | getStatusInterface a => exact decodeAs_getStatus_encodeIn 0x01#5 a
  | getStatusEndpoint a => exact decodeAs_getStatus_encodeIn 0x02#5 a
  | getStatusDefault rcp a =>
    simp only [Instr.wf, Bool.and_eq_true, bne_iff_ne] at hwf
    obtain ⟨⟨h0, h1⟩, h2⟩ := hwf
    refine (decodeAs_getStatus_encodeIn rcp a).trans ?_
    rw [decodeStatus, if_neg h0, if_neg h1, if_neg h2]
  | clearFeatureDevice a => exact decodeAs_clearFeature_encodeOut 0x00#5 a
  | clearFeatureEndpoint a => exact decodeAs_clearFeature_encodeOut 0x02#5 a
  | clearFeatureDefault rcp a =>
    simp only [Instr.wf, Bool.and_eq_true, bne_iff_ne] at hwf
    obtain ⟨h0, h2⟩ := hwf
    refine (decodeAs_clearFeature_encodeOut rcp a).trans ?_
    rw [decodeClearFeature, if_neg h0, if_neg h2]
  | setFeatureDevice a => exact decodeAs_setFeature_encodeOut 0x00#5 a
  | setFeatureEndpoint a => exact decodeAs_setFeature_encodeOut 0x02#5 a
  | setFeatureDefault rcp a =>
    simp only [Instr.wf, Bool.and_eq_true, bne_iff_ne] at hwf
    obtain ⟨h0, h2⟩ := hwf
    refine (decodeAs_setFeature_encodeOut rcp a).trans ?_
    rw [decodeSetFeature, if_neg h0, if_neg h2]
  | cbw c =>
    have hlen : (encodeCbw c).length ≤ 64 := by
      rw [encodeCbw_length c hwf]
      omega
    exact (decodeAs_bulkOut _ hlen).trans (congrArg Except.ok (decodeBulkOut_encodeCbw c hwf))
  | bulkOutDefault p =>
    have hlen : p.length ≤ 64 := (Laws.EncodeLength.bulkOutDefault p hwf).1
    exact (decodeAs_bulkOut p hlen).trans (congrArg Except.ok (decodeBulkOut_default p hwf))
  | testUnitReady => rfl
  | requestSense => rfl
  | inquiry reserved evpd page =>
    refine (decodeAs_cdb _ rfl).trans ?_
    simp [encode, padCb, decodeCdb, byteAt]
  | modeSense6 => rfl
  | startStopUnit => rfl
  | preventAllowMediumRemoval => rfl
  | readFormatCapacities => rfl
  | readCapacity10 => rfl
  | read10 lba n =>
    refine (decodeAs_cdb _ rfl).trans ?_
    simp [encode, encodeRw, padCb, decodeCdb, byteAt, be32, be16, putBe32, putBe16]
  | write10 lba n =>
    refine (decodeAs_cdb _ rfl).trans ?_
    simp [encode, encodeRw, padCb, decodeCdb, byteAt, be32, be16, putBe32, putBe16]
  | writeBuffer => rfl
  | readBuffer => rfl
  | vendor cb =>
    simp only [Instr.wf, Bool.and_eq_true, beq_iff_eq] at hwf
    obtain ⟨hlen, hgroup⟩ := hwf
    refine (decodeAs_cdb cb hlen).trans (congrArg Except.ok (decodeCdb_vendor cb ?_))
    rwa [byteAt_zero_eq_headD]
  | cdbDefault op => exact (decodeAs_cdb _ rfl).trans (congrArg Except.ok (decodeCdb_default (padCb [op]) hwf))

/-! ## The rows by their masks -/

/-- The group of an operation code by its mask (rule R114). -/
theorem vendorMask_iff (op : Byte) : op &&& 0xC0#8 = 0xC0#8 ↔ op.extractLsb' 6 2 = 0b11#2 := by
  have hmask : op &&& 0xC0#8 = op.extractLsb' 6 2 ++ 0#6 := by
    apply BitVec.eq_of_getLsbD_eq
    intro i hi
    simp only [BitVec.getLsbD_and, BitVec.getLsbD_append, BitVec.getLsbD_extractLsb']
    interval_cases i <;> simp
  rw [hmask]
  exact ⟨fun h => (extract_append_high _ (0#6)).symm.trans (congrArg (·.extractLsb' 6 2) h), fun h => h ▸ rfl⟩

/-- Settles O4: the vendor groups hold no other row's code, so their test can come first. -/
theorem cdbRowsByByteZero : Obligations.CdbRowsByByteZero := by
  intro cb hlen op lba n
  refine (decodeAs_cdb cb hlen).trans (congrArg Except.ok ?_)
  simp only [vendorMask_iff]
  by_cases hvendor : (byteAt cb 0).extractLsb' 6 2 = 0b11#2
  · rw [if_pos hvendor]
    exact decodeCdb_vendor cb hvendor
  · rw [if_neg hvendor]
    simp only [decodeCdb, if_neg hvendor]
    rfl

/-- Settles O5: the signature is the first four bytes, and the mask of byte 13 leaves its low half. -/
theorem cbwFieldsFromPacket : Obligations.CbwFieldsFromPacket := by
  intro p hlen
  refine (decodeAs_bulkOut p hlen).trans (congrArg Except.ok ?_)
  by_cases h31 : p.length = 31
  · have hsig := signature_iff p (by omega)
    by_cases htake : p.take 4 = [0x55#8, 0x53#8, 0x42#8, 0x43#8]
    · rw [decodeBulkOut, if_pos ⟨h31, hsig.2 htake⟩, if_pos ⟨h31, htake⟩, decodeCbw, hsig.2 htake, and_lowHalf]
      rfl
    · rw [decodeBulkOut, if_neg fun h => htake (hsig.1 h.2), if_neg fun h => htake h.2]
  · rw [decodeBulkOut, if_neg fun h => h31 h.1, if_neg fun h => h31 h.1]

/-- Settles O6, each word on its own. -/
theorem specWordsDecode : Obligations.SpecWordsDecode := by
  refine ⟨?_, ?_, ?_, ?_, ?_⟩ <;> decide

/-! ## Decoders answer well-formed instructions, and drop no bit of a SETUP packet -/

/-- First-level decode answers the default row only where no other row matches (rule R116). -/
theorem decodeFirst_wf (x : Setup) : (decodeFirst x).wf = true := by
  unfold decodeFirst
  dsimp only
  split_ifs <;> simp [Instr.wf, setupDefaultKey, *]

/-- The type bits of a bmRequestType are the lower two of its upper three (rule R92). -/
theorem typeBits_eq (bm : Byte) : bm.extractLsb' 5 2 = (topBits bm).extractLsb' 0 2 := by
  apply BitVec.eq_of_getLsbD_eq
  intro i hi
  have : i < 3 := by omega
  simp [hi, this]

/-- A standard request from the device is built from its recipient and bRequest (rule R92). -/
theorem encodeIn_rcpBits (bm rq : Byte) (a : SetupArgs) (h : topBits bm = 0b100#3) :
    encodeIn rq (rcpBits bm) a = encodeSetup bm rq a := by
  rw [encodeIn, ← h, bits_requestType]

/-- A standard request to the device is built from its recipient and bRequest (rule R92). -/
theorem encodeOut_rcpBits (bm rq : Byte) (a : SetupArgs) (h : topBits bm = 0b000#3) :
    encodeOut rq (rcpBits bm) a = encodeSetup bm rq a := by
  rw [encodeOut, ← h, bits_requestType]

/-- The bmRequestType of a request for an interface is its direction, its type and the recipient 1 (rule R92). -/
theorem iface_bits (bm : Byte) (h : rcpBits bm = 0x01#5) :
    bm.extractLsb' 7 1 ++ bm.extractLsb' 5 2 ++ 0b00001#5 = bm := by
  have htop : bm.extractLsb' 7 1 ++ bm.extractLsb' 5 2 = topBits bm := append_extract bm 5 1 2
  rw [htop, ← h]
  exact bits_requestType bm

/-- A type that is neither standard, class nor vendor is the reserved one (rules R92, R110). -/
theorem typeBits_reserved (bm : Byte) (hkey : delegatedKey bm) (hclass : bm.extractLsb' 5 2 ≠ 0b01#2)
    (hvendor : bm.extractLsb' 5 2 ≠ 0b10#2) : bm.extractLsb' 5 2 = 0b11#2 := by
  obtain ⟨hin, hout, -⟩ := hkey
  rw [typeBits_eq] at *
  revert hin hout hclass hvendor
  generalize topBits bm = t
  revert t
  decide

/-- The encoding of what a SETUP packet decodes to is the packet (rules R91, R115). -/
theorem encode_decodeFirst (x : Setup) :
    encode (decodeFirst x) = encodeSetup x.bmRequestType x.bRequest x.args := by
  unfold decodeFirst
  dsimp only
  by_cases hin : topBits x.bmRequestType = 0b100#3
  · rw [if_pos hin]
    split_ifs <;> simp [encode, encodeIn_rcpBits _ _ _ hin, *]
  · rw [if_neg hin]
    by_cases hout : topBits x.bmRequestType = 0b000#3
    · rw [if_pos hout]
      split_ifs <;> simp [encode, encodeOut_rcpBits _ _ _ hout, *]
    · rw [if_neg hout]
      split_ifs with hrcp hclass hvendor
      · simp only [encode, encodeIface, ← hclass, iface_bits _ hrcp]
      · simp only [encode, encodeIface, ← hvendor, iface_bits _ hrcp]
      · simp only [encode, encodeIface, ← typeBits_reserved _ ⟨hin, hout, hrcp⟩ hclass hvendor, iface_bits _ hrcp]
      · rfl

/-- The MSC driver's decode answers well-formed instructions of its format (rules R111, R205). -/
theorem decodeMsc_wf (bm rq : Byte) (a : SetupArgs) (hkey : delegatedKey bm) :
    (decodeMsc bm rq a).wf = true ∧ (decodeMsc bm rq a).format = .msc := by
  obtain ⟨hin, hout, hrcp⟩ := hkey
  unfold decodeMsc
  split_ifs with hlun hreset
  · exact ⟨rfl, rfl⟩
  · exact ⟨rfl, rfl⟩
  · rw [not_and_or] at hlun hreset
    simpa [Instr.wf, Instr.format, mscDefaultKey, hin, hout, hrcp] using ⟨hlun, hreset⟩

theorem decodeDescriptor_wf (rcp : BitVec 5) (a : SetupArgs) :
    (decodeDescriptor rcp a).wf = true ∧ (decodeDescriptor rcp a).format = .getDescriptor := by
  unfold decodeDescriptor
  dsimp only
  split_ifs <;> simp [Instr.wf, Instr.format, *]

theorem decodeStatus_wf (rcp : BitVec 5) (a : SetupArgs) :
    (decodeStatus rcp a).wf = true ∧ (decodeStatus rcp a).format = .getStatus := by
  unfold decodeStatus
  split_ifs <;> simp [Instr.wf, Instr.format, *]

theorem decodeClearFeature_wf (rcp : BitVec 5) (a : SetupArgs) :
    (decodeClearFeature rcp a).wf = true ∧ (decodeClearFeature rcp a).format = .clearFeature := by
  unfold decodeClearFeature
  split_ifs <;> simp [Instr.wf, Instr.format, *]

theorem decodeSetFeature_wf (rcp : BitVec 5) (a : SetupArgs) :
    (decodeSetFeature rcp a).wf = true ∧ (decodeSetFeature rcp a).format = .setFeature := by
  unfold decodeSetFeature
  split_ifs <;> simp [Instr.wf, Instr.format, *]

/-- A bulk-OUT packet's decode answers well-formed instructions of its format (rules R94, R113). -/
theorem decodeBulkOut_wf (p : List Byte) (h : p.length ≤ 64) :
    (decodeBulkOut p).wf = true ∧ (decodeBulkOut p).format = .bulkOut := by
  unfold decodeBulkOut
  split_ifs with hcbw
  · obtain ⟨hlen, hsig⟩ := hcbw
    have hlun : (byteAt p 13 &&& 0x0F#8).extractLsb' 4 4 = 0#4 := by
      rw [and_lowHalf]
      exact extract_append_high _ _
    simp [Instr.wf, Instr.format, decodeCbw, hsig, cbwSignature, hlun, hlen]
  · have hno : p.length ≠ 31 ∨ p.take 4 ≠ [0x55#8, 0x53#8, 0x42#8, 0x43#8] := by
      refine not_and_or.1 fun ⟨hlen, htake⟩ => hcbw ⟨hlen, ?_⟩
      exact (signature_iff p (by omega)).2 htake
    simpa [Instr.wf, Instr.format, h] using hno

/-- A test answers a well-formed instruction if both of its branches do. -/
theorem Instr.wf_ite {c : Prop} [Decidable c] {i j : Instr} (hi : i.wf = true) (hj : ¬ c → j.wf = true) :
    (if c then i else j).wf = true := by
  by_cases h : c
  · rwa [if_pos h]
  · rw [if_neg h]
    exact hj h

/-- A command block's decode answers well-formed instructions (rules R114, R118). -/
theorem decodeCdb_wf (cb : List Byte) (h : cb.length = 16) : (decodeCdb cb).wf = true := by
  by_cases hvendor : (byteAt cb 0).extractLsb' 6 2 = 0b11#2
  · rw [decodeCdb_vendor cb hvendor]
    rw [byteAt_zero_eq_headD] at hvendor
    simp only [Instr.wf, h, hvendor, beq_self_eq_true, Bool.and_self]
  · unfold decodeCdb
    dsimp only
    rw [if_neg hvendor]
    exact Instr.wf_ite rfl fun h00 => Instr.wf_ite rfl fun h03 => Instr.wf_ite rfl fun h12 =>
      Instr.wf_ite rfl fun h1A => Instr.wf_ite rfl fun h1B => Instr.wf_ite rfl fun h1E =>
      Instr.wf_ite rfl fun h23 => Instr.wf_ite rfl fun h25 => Instr.wf_ite rfl fun h28 =>
      Instr.wf_ite rfl fun h2A => Instr.wf_ite rfl fun h3B => Instr.wf_ite rfl fun h3C =>
        (cdbDefaultKey_iff _).2 ⟨h00, h03, h12, h1A, h1B, h1E, h23, h25, h28, h2A, h3B, h3C, hvendor⟩

/-- Settles O2: format by format from what each decoder answers, and the SETUP rows' encodings put a packet's bits
back where they were. -/
theorem decodersAnswerTheirFormat : Obligations.DecodersAnswerTheirFormat := by
  refine ⟨fun f p i h => ?_, fun p hlen => ?_⟩
  · cases f with
    | setup =>
      obtain ⟨x, -, rfl⟩ := (decodeAs_setup_eq_ok p i).1 h
      exact ⟨decodeFirst_wf x, decodeFirst_format x⟩
    | msc =>
      obtain ⟨x, -, hkey, rfl⟩ := (decodeAs_msc_eq_ok p i).1 h
      exact decodeMsc_wf _ _ _ hkey
    | getDescriptor =>
      obtain ⟨rcp, a, -, rfl⟩ := (decodeAs_getDescriptor_eq_ok p i).1 h
      exact decodeDescriptor_wf rcp a
    | getStatus =>
      obtain ⟨rcp, a, -, rfl⟩ := (decodeAs_getStatus_eq_ok p i).1 h
      exact decodeStatus_wf rcp a
    | clearFeature =>
      obtain ⟨rcp, a, -, rfl⟩ := (decodeAs_clearFeature_eq_ok p i).1 h
      exact decodeClearFeature_wf rcp a
    | setFeature =>
      obtain ⟨rcp, a, -, rfl⟩ := (decodeAs_setFeature_eq_ok p i).1 h
      exact decodeSetFeature_wf rcp a
    | bulkOut =>
      by_cases hlen : p.length ≤ 64
      · rw [decodeAs_bulkOut p hlen, Except.ok.injEq] at h
        exact h ▸ decodeBulkOut_wf p hlen
      · simp [decodeAs, hlen] at h
    | cdb =>
      by_cases hlen : p.length = 16
      · rw [decodeAs_cdb p hlen, Except.ok.injEq] at h
        exact h ▸ ⟨decodeCdb_wf p hlen, decodeCdb_format p⟩
      · simp [decodeAs, hlen] at h
  · have hsome : decodeSetup p ≠ none := fun hnone => (decodeSetup_eq_none p).1 hnone hlen
    obtain ⟨x, hx⟩ := Option.ne_none_iff_exists'.1 hsome
    refine ⟨decodeFirst x, (decodeAs_setup_eq_ok p _).2 ⟨x, hx, rfl⟩, ?_⟩
    rw [encode_decodeFirst, (decodeSetup_eq_some p x).1 hx]

/-! ## SETUP rows by their masks -/

/-- The key of a SETUP packet under the mask of the standard rows is bRequest with the direction and the type
(rule R110). -/
theorem standardMask_eq (rq bm : Byte) : (rq ++ bm : Word16) &&& 0xFFE0#16 = rq ++ (topBits bm ++ 0#5) := by
  apply BitVec.eq_of_getLsbD_eq
  intro i hi
  simp only [topBits, BitVec.getLsbD_and, BitVec.getLsbD_append, BitVec.getLsbD_extractLsb']
  interval_cases i <;> simp

/-- A standard row matches by bRequest, direction and type (rule R110). -/
theorem standardRow_iff (rq bm r : Byte) (t : BitVec 3) :
    (rq ++ bm : Word16) &&& 0xFFE0#16 = r ++ (t ++ 0#5) ↔ rq = r ∧ topBits bm = t := by
  rw [standardMask_eq]
  refine ⟨fun h => ⟨?_, ?_⟩, fun ⟨hr, ht⟩ => hr ▸ ht ▸ rfl⟩
  · simpa using congrArg (·.extractLsb' 8 8) h
  · simpa using congrArg (fun x : Word16 => topBits (x.extractLsb' 0 8)) h

/-- The key of a SETUP packet under the mask of the delegated rows is the type with the recipient (rule R110). -/
theorem delegatedMask_eq (rq bm : Byte) :
    (rq ++ bm : Word16) &&& 0x007F#16 = 0#9 ++ (bm.extractLsb' 5 2 ++ rcpBits bm) := by
  apply BitVec.eq_of_getLsbD_eq
  intro i hi
  simp only [rcpBits, BitVec.getLsbD_and, BitVec.getLsbD_append, BitVec.getLsbD_extractLsb']
  interval_cases i <;> simp

/-- A delegated row matches by type and recipient (rule R110). -/
theorem delegatedRow_iff (rq bm : Byte) (type : BitVec 2) (rcp : BitVec 5) :
    (rq ++ bm : Word16) &&& 0x007F#16 = 0#9 ++ (type ++ rcp) ↔ bm.extractLsb' 5 2 = type ∧ rcpBits bm = rcp := by
  rw [delegatedMask_eq]
  refine ⟨fun h => ?_, fun ⟨ht, hr⟩ => ht ▸ hr ▸ rfl⟩
  have h7 : bm.extractLsb' 5 2 ++ rcpBits bm = type ++ rcp := by
    simpa only [extract_append_low] using congrArg (fun x : BitVec (9 + (2 + 5)) => x.extractLsb' 0 (2 + 5)) h
  exact ⟨by simpa only [extract_append_high] using congrArg (·.extractLsb' 5 2) h7,
    by simpa only [extract_append_low] using congrArg (·.extractLsb' 0 5) h7⟩

/-- Settles O3: the masks test bRequest, direction and type, or type and recipient, which the decoder tests one after
the other. -/
theorem setupRowsByKey : Obligations.SetupRowsByKey := by
  intro p hlen k rcp dir rq a
  refine (decodeAs_setup_eq_ok p _).2 ⟨⟨byteAt p 0, rq, le16 p 2, le16 p 4, le16 p 6⟩, ?_, ?_⟩
  · simp [decodeSetup, hlen, rq]
  have hstd (v : Word16) (r : Byte) (t : BitVec 3) (hv : v = r ++ (t ++ 0#5)) :
      k &&& 0xFFE0#16 = v ↔ rq = r ∧ topBits (byteAt p 0) = t := hv ▸ standardRow_iff rq (byteAt p 0) r t
  have hdel (v : Word16) (type : BitVec 2) (hv : v = 0#9 ++ (type ++ 0x01#5)) :
      k &&& 0x007F#16 = v ↔ (byteAt p 0).extractLsb' 5 2 = type ∧ rcpBits (byteAt p 0) = 0x01#5 :=
    hv ▸ delegatedRow_iff rq (byteAt p 0) type 0x01#5
  simp only [hstd 0x0080#16 0x00#8 0b100#3 rfl, hstd 0x0680#16 0x06#8 0b100#3 rfl, hstd 0x0880#16 0x08#8 0b100#3 rfl,
    hstd 0x0A80#16 0x0A#8 0b100#3 rfl, hstd 0x0100#16 0x01#8 0b000#3 rfl, hstd 0x0300#16 0x03#8 0b000#3 rfl,
    hstd 0x0500#16 0x05#8 0b000#3 rfl, hstd 0x0700#16 0x07#8 0b000#3 rfl, hstd 0x0900#16 0x09#8 0b000#3 rfl,
    hstd 0x0B00#16 0x0B#8 0b000#3 rfl, hdel 0x0021#16 0b01#2 rfl, hdel 0x0041#16 0b10#2 rfl, hdel 0x0061#16 0b11#2 rfl]
  simp only [decodeFirst, Setup.args]
  by_cases hin : topBits (byteAt p 0) = 0b100#3
  · have htype : (byteAt p 0).extractLsb' 5 2 = 0#2 := by
      rw [typeBits_eq, hin]
      rfl
    simp [hin, htype, rcp, a]
  · by_cases hout : topBits (byteAt p 0) = 0b000#3
    · have htype : (byteAt p 0).extractLsb' 5 2 = 0#2 := by
        rw [typeBits_eq, hout]
        rfl
      simp [hout, htype, rcp, a]
    · by_cases hrcp : rcpBits (byteAt p 0) = 0x01#5
      · have hreserved := typeBits_reserved (byteAt p 0) ⟨hin, hout, hrcp⟩
        by_cases hclass : (byteAt p 0).extractLsb' 5 2 = 0b01#2
        · simp [hin, hout, hrcp, hclass, dir, a]
        · by_cases hvendor : (byteAt p 0).extractLsb' 5 2 = 0b10#2
          · simp [hin, hout, hrcp, hvendor, dir, a]
          · simp [hin, hout, hrcp, hreserved hclass hvendor, dir, a]
      · simp [hin, hout, hrcp, a]

end Sys2Proof

namespace Sys2Proof.Machine

/-! ## First and second level do the same -/

/-- A delegated packet's first-level instruction delegates to the MSC driver with its own two bytes (rules R149,
R153). -/
theorem exec_decodeFirst_delegated (x : Setup) (h : delegatedKey x.bmRequestType) (s : State) :
    exec (decodeFirst x) s = delegate x.args (mscCtrlReq x.bmRequestType x.bRequest x.args) s := by
  have hrow : decodeFirst x = _ := decodeFirst_delegated x.bmRequestType x.bRequest x.args h
  have hbits := iface_bits x.bmRequestType h.2.2
  have hdelegate {bm : Byte} (hbm : bm = x.bmRequestType) :
      delegate x.args (mscCtrlReq bm x.bRequest x.args) s
        = delegate x.args (mscCtrlReq x.bmRequestType x.bRequest x.args) s := by rw [hbm]
  rw [hrow]
  split_ifs with hclass hvendor
  · rw [hclass] at hbits
    exact hdelegate hbits
  · rw [hvendor] at hbits
    exact hdelegate hbits
  · rw [typeBits_reserved _ h hclass hvendor] at hbits
    exact hdelegate hbits

/-- The MSC driver's dispatcher is decode, then `exec` (rule R111). -/
theorem exec_decodeMsc (bm rq : Byte) (a : SetupArgs) (s : State) :
    exec (decodeMsc bm rq a) s = mscCtrlReq bm rq a s := by
  unfold decodeMsc mscCtrlReq
  simp only [exec_ite]
  rfl

/-- GET_DESCRIPTOR's dispatcher is decode, then `exec` (rule R106). -/
theorem exec_decodeDescriptor (rcp : BitVec 5) (a : SetupArgs) (s : State) :
    exec (decodeDescriptor rcp a) s = exec (.getDescriptor rcp a) s := by
  unfold decodeDescriptor
  simp only [exec_ite]
  rfl

/-- GET_STATUS's dispatcher is decode, then `exec`. -/
theorem exec_decodeStatus (rcp : BitVec 5) (a : SetupArgs) (s : State) :
    exec (decodeStatus rcp a) s = exec (.getStatus rcp a) s := by
  unfold decodeStatus
  simp only [exec_ite]
  rfl

/-- CLEAR_FEATURE's dispatcher is decode, then `exec`. -/
theorem exec_decodeClearFeature (rcp : BitVec 5) (a : SetupArgs) (s : State) :
    exec (decodeClearFeature rcp a) s = exec (.clearFeature rcp a) s := by
  unfold decodeClearFeature
  simp only [exec_ite]
  rfl

/-- SET_FEATURE's dispatcher is decode, then `exec`. -/
theorem exec_decodeSetFeature (rcp : BitVec 5) (a : SetupArgs) (s : State) :
    exec (decodeSetFeature rcp a) s = exec (.setFeature rcp a) s := by
  unfold decodeSetFeature
  simp only [exec_ite]
  rfl

/-- Settles O10: each first-level meaning is the second-level decode followed by `exec`; a delegated one where the
interface's driver takes control requests. -/
theorem firstLevelRunsSecondLevel : Obligations.FirstLevelRunsSecondLevel := by
  intro p f i j s hcdb hbulk hi hj hserved
  cases f with
  | setup => rw [Except.ok.inj (hi.symm.trans hj)]
  | msc =>
    obtain ⟨x, hx, rfl⟩ := (decodeAs_setup_eq_ok p i).1 hi
    obtain ⟨y, hy, hkey, rfl⟩ := (decodeAs_msc_eq_ok p j).1 hj
    obtain rfl : x = y := Option.some.inj (hx.symm.trans hy)
    obtain ⟨d, hd, hreq⟩ := hserved rfl
    have hindex : ifaceNumber x.wIndex = (byteAt p 4).toNat := by
      rw [(decodeSetup_eq_some p x).1 hx]
      rfl
    rw [exec_decodeFirst_delegated x hkey, exec_decodeMsc,
      delegate_served x.args _ s d ((driver_eq_some _ _ _).2 (hindex ▸ hd)) hreq]
  | getDescriptor =>
    obtain ⟨rcp, a, hp, rfl⟩ := (decodeAs_getDescriptor_eq_ok p j).1 hj
    rw [Except.ok.inj (hi.symm.trans hp), exec_decodeDescriptor]
  | getStatus =>
    obtain ⟨rcp, a, hp, rfl⟩ := (decodeAs_getStatus_eq_ok p j).1 hj
    rw [Except.ok.inj (hi.symm.trans hp), exec_decodeStatus]
  | clearFeature =>
    obtain ⟨rcp, a, hp, rfl⟩ := (decodeAs_clearFeature_eq_ok p j).1 hj
    rw [Except.ok.inj (hi.symm.trans hp), exec_decodeClearFeature]
  | setFeature =>
    obtain ⟨rcp, a, hp, rfl⟩ := (decodeAs_setFeature_eq_ok p j).1 hj
    rw [Except.ok.inj (hi.symm.trans hp), exec_decodeSetFeature]
  | bulkOut => exact absurd rfl hbulk
  | cdb => exact absurd rfl hcdb

end Sys2Proof.Machine
end

section
/-! PROOFS. What the SCSI commands answer (43_scsi_dispatch_cdb6.md, 44_scsi_cdb10_vendor.md): the LUN oracle (rule
R18), the commands that answer from the parameters and the LUN's record (rules R292 to R302, R321, R323), the
unsupported and the vendor commands (rules R331 to R335). -/

namespace Sys2Proof.Machine

/-! ## The LUN oracle -/

/-- Settles O39: the two clauses are the oracle's two branches. -/
theorem lunOracle : Obligations.LunOracle := by
  intro c s
  unfold lunCall
  refine ⟨fun a as h => ?_, fun h => ?_⟩
  · simp only [h]
  · simp only [h]

/-! ## The parameters -/

/-- The lengths rule R8 puts on the parameters. -/
theorem config_bounds (c : Config) (h : c.valid = true) :
    (∀ t ∈ c.strings, t.length ≤ 30) ∧ c.inqStd.length = 36 ∧ c.vpdSerial.length ≤ 60 ∧ c.vpdDevid.length ≤ 251
      ∧ c.modePages.length ≤ 251 ∧ 0x1C0 ≤ c.pmaSize := by
  simp only [Config.valid, Bool.and_eq_true, decide_eq_true_eq, List.all_eq_true, beq_iff_eq] at h
  obtain ⟨⟨⟨⟨⟨⟨⟨⟨⟨-, hstrings⟩, hinq⟩, -⟩, -⟩, hserial⟩, hdevid⟩, -⟩, hpages⟩, hpma⟩ := h
  exact ⟨hstrings, hinq, hserial, hdevid, hpages, hpma⟩

/-! ## REQUEST SENSE, INQUIRY and the LUN's data -/

/-- Settles O33: the reply is built from the record before its three fields are cleared. -/
theorem requestSense : Obligations.RequestSense := by
  intro s x
  exact ⟨_, rfl, replied_reply (encodeSense x) _ (by simp)⟩

/-- A 16-bit length is its quotient by 256 and its last byte (rules R72, R299). -/
theorem putBe16_ofNat (n : Nat) : putBe16 (BitVec.ofNat 16 n) = [BitVec.ofNat 8 (n / 256), BitVec.ofNat 8 n] := by
  have hhigh : (BitVec.ofNat 16 n).extractLsb' 8 8 = BitVec.ofNat 8 (n / 256) := by
    apply BitVec.eq_of_toNat_eq
    simp [Nat.shiftRight_eq_div_pow]
    omega
  have hlow : (BitVec.ofNat 16 n).extractLsb' 0 8 = BitVec.ofNat 8 n := by
    apply BitVec.eq_of_toNat_eq
    simp
  rw [putBe16, hhigh, hlow]

/-- Settles O34: the guards of `execInquiry` in order, each block within the chunk's 512 bytes. -/
theorem inquiry : Obligations.Inquiry := by
  intro reserved evpd page s hvalid i answers
  obtain ⟨-, hinq, hserial, hdevid, -, -⟩ := config_bounds s.cfg hvalid
  have hanswers (bytes : List Byte) (hlen : bytes.length ≤ 512) (h : exec i s = .next (reply bytes s)) :
      answers bytes := ⟨_, h, replied_reply bytes s hlen⟩
  refine ⟨fun hr he hp => ?_, fun hr he hp => ?_, fun hr he hp => ?_, fun hr he hp => ?_, fun hbad => ?_⟩
  · subst hr he hp
    exact hanswers _ (by omega) rfl
  · subst hr he hp
    exact hanswers vpd00 (by simp [vpd00]) rfl
  · subst hr he hp
    exact hanswers (vpd80 s.cfg) (by simp [vpd80]; omega) rfl
  · subst hr he hp
    have hblock : vpd83 s.cfg = [0x00#8, 0x83#8, BitVec.ofNat 8 (s.cfg.vpdDevid.length / 256),
        BitVec.ofNat 8 s.cfg.vpdDevid.length] ++ s.cfg.vpdDevid := by
      rw [vpd83, putBe16_ofNat]
      rfl
    exact hblock ▸ hanswers (vpd83 s.cfg) (by simp [vpd83, putBe16]; omega) rfl
  · change execInquiry reserved evpd page s = _
    unfold execInquiry
    rcases hbad with hr | ⟨he, hp⟩ | ⟨he, h00, h80, h83⟩
    · rw [if_pos hr]
      rfl
    · by_cases hr : reserved ≠ 0#7
      · rw [if_pos hr]
        rfl
      · rw [if_neg hr, if_pos he, if_pos hp]
        rfl
    · by_cases hr : reserved ≠ 0#7
      · rw [if_pos hr]
        rfl
      · have he' : ¬ evpd = 0#1 := by simp [he]
        rw [if_neg hr, if_neg he', if_neg h00, if_neg h80, if_neg h83]
        rfl

/-- Settles O35: the three handlers reply from the addressed LUN's record, without a look at its state. -/
theorem lunDataAnswers : Obligations.LunDataAnswers := by
  intro s l hvalid hlun c h
  obtain ⟨-, -, -, -, hpages, -⟩ := config_bounds s.cfg hvalid
  refine ⟨⟨_, withLun_of_curLun s l _ hlun, replied_reply (modeData s.cfg l.writable) s ?_⟩,
    ⟨_, withLun_of_curLun s l _ hlun, replied_reply (formatCapacities c) s ?_⟩,
    ⟨_, withLun_of_curLun s l _ hlun, replied_reply (capacityData c) s ?_⟩⟩
  · simp [modeData]
    omega
  · simp [formatCapacities, putBe32]
  · simp [capacityData, putBe32]

/-! ## Unsupported and vendor commands -/

/-- Settles O40: each handler's answer is `cmd_unsupported`, or the fault of an implemented buffer command. -/
theorem unsupportedCommands : Obligations.UnsupportedCommands := by
  intro s op cb l hlun
  refine ⟨rfl, fun hvendor => ?_, fun i hi => ⟨fun hcfg => ?_, fun hcfg => ?_⟩⟩
  · exact (withLun_of_curLun s l _ hlun).trans (if_pos hvendor)
  · have hno : ¬ s.cfg.hasBufferCmds = true := by simp [hcfg]
    rcases hi with rfl | rfl
    · exact if_neg hno
    · exact if_neg hno
  · rcases hi with rfl | rfl
    · exact if_pos hcfg
    · exact if_pos hcfg

/-- A vendor callback's answer, and the state after the call (rule R333). -/
def State.vendorCalled (cb : List Byte) (s : State) : LunAnswer × State :=
  lunCall (.vendor s.curLunIndex cb s.scsi.inLen (Mem.readRange s.bot.dataBuf 0 s.scsi.inLen.toNat)) s

/-- A vendor command with a callback runs as its answer says (rules R333, R334). -/
theorem execVendor_of_callback (cb : List Byte) (s : State) (l : Lun) (hlun : s.curLun = some l)
    (hvendor : l.cmdVendor = true) :
    execVendor cb s =
      let v := (s.vendorCalled cb).1.vendor
      let u := vendorEffects v (s.vendorCalled cb).2
      if v.code = 1 ∨ v.code = 2 then
        if v.payload.length < 1 ∨ 512 < v.payload.length then .fault .vendorPayloadOutOfRange
        else .next ((putChunk v.payload u).ret v.code)
      else .next (u.ret v.code) := by
  rw [execVendor, withLun_of_curLun s l _ hlun, if_neg (by simp [hvendor])]
  rfl

/-- A vendor callback's effects are its `ctx` and, where it set one, its sense (rule R334 d, e). -/
theorem vendorEffects_eq (v : VendorAnswer) (s : State) :
    vendorEffects v s = { s with scsi := { s.scsi with
      ctx := v.ctx,
      sense :=
        match v.sense with
        | none => s.scsi.sense
        | some (key, asc, ascq) => ⟨0x70#8, key, asc, ascq, 0#32, 0#32, 10#8⟩ } } := by
  unfold vendorEffects
  cases v.sense with
  | none => rfl
  | some x => rfl

/-- A LUN call leaves the target alone. -/
@[simp] theorem lunCall_scsi (c : LunCall) (s : State) : (lunCall c s).2.scsi = s.scsi := by
  obtain ⟨m, hm⟩ := lunCall_frame c s
  rw [hm]

/-- Settles O41: the three clauses are the handler's three branches. -/
theorem vendorCommand : Obligations.VendorCommand := by
  intro cb s l hlun hvendor r v u
  have hu : vendorEffects v r.2 = u := by
    rw [vendorEffects_eq]
    simp only [r, u, lunCall_scsi] <;> rfl
  have hexec : exec (.vendor cb) s = _ := execVendor_of_callback cb s l hlun hvendor
  change exec (.vendor cb) s = (if v.code = 1 ∨ v.code = 2 then
      if v.payload.length < 1 ∨ 512 < v.payload.length then .fault .vendorPayloadOutOfRange
      else .next ((putChunk v.payload (vendorEffects v r.2)).ret v.code)
    else .next ((vendorEffects v r.2).ret v.code)) at hexec
  rw [hu] at hexec
  refine ⟨fun hcode => ?_, fun hcode h1 h512 => ?_, fun hcode hlen => ?_⟩
  · exact hexec.trans (if_neg (not_or.2 hcode))
  · rw [if_pos hcode, if_neg (by omega)] at hexec
    exact ⟨_, hexec, replied_putChunk v.code v.payload u h512⟩
  · exact hexec.trans ((if_pos hcode).trans (if_pos (by omega)))

/-! ## What any command can leave -/

/-- `s` after a command that calls the medium, counts in `ctx`, sets the sense and returns a code, and nothing else. -/
def State.commandEnded (s : State) (m : Medium) (ctx : Word32) (sense : Sense) (code : Int) : State :=
  { s with medium := m, scsi := { s.scsi with ctx := ctx, sense := sense, code := code } }

/-- The medium agent's record of calls only grows. -/
def Medium.Grown (m m' : Medium) : Prop := ∃ calls, m'.calls = m.calls ++ calls

/-- What a command other than REQUEST SENSE and the vendor commands can leave (rules R282, R284, R289): a success, a
failure with its sense, or a chunk, which for valid parameters has 1 to 512 bytes. -/
inductive CommandLeaves (s : State) : State → Prop where
  | succeeded (m : Medium) (ctx : Word32) (code : Int) (hm : s.medium.Grown m) (hcode : 0 ≤ code)
      (hmore : code ≠ 1 ∧ code ≠ 2) : CommandLeaves s (s.commandEnded m ctx s.scsi.sense code)
  | failed (m : Medium) (ctx : Word32) (key : BitVec 4) (asc ascq : Byte) (code : Int) (hm : s.medium.Grown m)
      (hcode : code < 0) (hkey : key ≠ 0#4) (hasc : asc ≠ 0#8) :
      CommandLeaves s (s.commandEnded m ctx ⟨0x70#8, key, asc, ascq, 0#32, 0#32, 10#8⟩ code)
  | delivered (m : Medium) (ctx : Word32) (code : Int) (bytes : List Byte) (hm : s.medium.Grown m)
      (hcode : code = 1 ∨ code = 2) (hbytes : s.cfg.valid = true → 1 ≤ bytes.length ∧ bytes.length ≤ 512) :
      CommandLeaves s (putChunk bytes (s.commandEnded m ctx s.scsi.sense code))

theorem Medium.Grown.refl (m : Medium) : m.Grown m := ⟨[], by simp⟩

theorem Medium.Grown.trans {m n o : Medium} (h : m.Grown n) (g : n.Grown o) : m.Grown o := by
  obtain ⟨c, hc⟩ := h
  obtain ⟨d, hd⟩ := g
  exact ⟨c ++ d, by rw [hd, hc, List.append_assoc]⟩

/-- A LUN call's record grows, and nothing else changes. -/
theorem lunCall_grown (c : LunCall) (s : State) : ∃ m, s.medium.Grown m ∧ (lunCall c s).2 = { s with medium := m } := by
  obtain ⟨m, hm⟩ := lunCall_frame c s
  have hcalls := lunCall_recorded c s
  rw [hm] at hcalls
  exact ⟨m, ⟨[c], hcalls⟩, hm⟩

/-- What a command leaves after a LUN call and a count is what it leaves. -/
theorem CommandLeaves.after {s t : State} {m : Medium} (ctx : Word32) (hm : s.medium.Grown m)
    (h : CommandLeaves { s with medium := m, scsi := { s.scsi with ctx := ctx } } t) : CommandLeaves s t := by
  cases h with
  | succeeded m' ctx' code hm' hcode hmore => exact .succeeded m' ctx' code (hm.trans hm') hcode hmore
  | failed m' ctx' key asc ascq code hm' hcode hkey hasc =>
    exact .failed m' ctx' key asc ascq code (hm.trans hm') hcode hkey hasc
  | delivered m' ctx' code bytes hm' hcode hbytes => exact .delivered m' ctx' code bytes (hm.trans hm') hcode hbytes

theorem commandLeaves_ret (s : State) (code : Int) (hcode : 0 ≤ code) (hmore : code ≠ 1 ∧ code ≠ 2) :
    CommandLeaves s (s.ret code) :=
  .succeeded s.medium s.scsi.ctx code (.refl _) hcode hmore

theorem commandLeaves_commandFailed (key : BitVec 4) (asc ascq : Byte) (code : Int) (s : State) (hcode : code < 0)
    (hkey : key ≠ 0#4) (hasc : asc ≠ 0#8) : CommandLeaves s (commandFailed key asc ascq code s) :=
  .failed s.medium s.scsi.ctx key asc ascq code (.refl _) hcode hkey hasc

theorem commandLeaves_reply (bytes : List Byte) (s : State)
    (hbytes : s.cfg.valid = true → 1 ≤ bytes.length ∧ bytes.length ≤ 512) : CommandLeaves s (reply bytes s) :=
  .delivered s.medium s.scsi.ctx 1 bytes (.refl _) (.inl rfl) hbytes

/-- A handler that completes had its LUN (rule R290). -/
theorem withLun_eq_next {s t : State} {f : Lun → Res} (h : withLun s f = .next t) :
    ∃ l, s.curLun = some l ∧ f l = .next t := by
  unfold withLun at h
  cases hl : s.curLun with
  | none => simp [hl] at h
  | some l => exact ⟨l, rfl, by simpa [hl] using h⟩

/-- The access check changes nothing (rule R325). -/
theorem checkMediumAccess_eq_next {l : Lun} {lba : Word32} {n : Word16} {s t : State}
    (h : checkMediumAccess l lba n s = .next t) : t = s := by
  unfold checkMediumAccess at h
  split_ifs at h
  exact (Host.Outcome.next.inj h).symm

theorem execTestUnitReady_leaves {s t : State} (h : execTestUnitReady s = .next t) : CommandLeaves s t := by
  obtain ⟨l, -, h⟩ := withLun_eq_next h
  split_ifs at h with hready
  · exact Host.Outcome.next.inj h ▸ commandLeaves_ret s 0 (by decide) (by decide)
  · exact Host.Outcome.next.inj h ▸ commandLeaves_commandFailed _ _ _ _ s (by decide) (by decide) (by decide)

theorem invalidField_leaves (s : State) : CommandLeaves s (invalidField s) :=
  commandLeaves_commandFailed _ _ _ _ s (by decide) (by decide) (by decide)

theorem unsupported_leaves (s : State) : CommandLeaves s (unsupported s) :=
  commandLeaves_commandFailed _ _ _ _ s (by decide) (by decide) (by decide)

/-- The blocks INQUIRY answers with are 7 to 255 bytes long (rules R296 to R299). -/
theorem execInquiry_leaves {reserved : BitVec 7} {evpd : BitVec 1} {page : Byte} {s t : State}
    (h : execInquiry reserved evpd page s = .next t) : CommandLeaves s t := by
  unfold execInquiry at h
  split_ifs at h
  all_goals obtain rfl := Host.Outcome.next.inj h
  · exact invalidField_leaves s
  · exact invalidField_leaves s
  · exact commandLeaves_reply _ s fun hvalid => by
      have := (config_bounds _ hvalid).2.1
      omega
  · exact commandLeaves_reply _ s fun _ => by simp [vpd00]
  · exact commandLeaves_reply _ s fun hvalid => by
      have := (config_bounds _ hvalid).2.2.1
      simp [vpd80]
      omega
  · exact commandLeaves_reply _ s fun hvalid => by
      have := (config_bounds _ hvalid).2.2.2.1
      simp [vpd83, putBe16]
      omega
  · exact invalidField_leaves s

theorem execModeSense6_leaves {s t : State} (h : execModeSense6 s = .next t) : CommandLeaves s t := by
  obtain ⟨l, -, h⟩ := withLun_eq_next h
  obtain rfl := Host.Outcome.next.inj h
  refine commandLeaves_reply _ s fun hvalid => ?_
  have := (config_bounds _ hvalid).2.2.2.2.1
  simp [modeData]
  omega

theorem execReadFormatCapacities_leaves {s t : State} (h : execReadFormatCapacities s = .next t) :
    CommandLeaves s t := by
  obtain ⟨l, -, h⟩ := withLun_eq_next h
  exact Host.Outcome.next.inj h ▸ commandLeaves_reply _ s fun _ => by simp [formatCapacities, putBe32]

theorem execReadCapacity10_leaves {s t : State} (h : execReadCapacity10 s = .next t) : CommandLeaves s t := by
  obtain ⟨l, -, h⟩ := withLun_eq_next h
  exact Host.Outcome.next.inj h ▸ commandLeaves_reply _ s fun _ => by simp [capacityData, putBe32]

/-- A block read is one LUN call, then a chunk of 512 bytes or a failure (rule R326). -/
theorem readBlock_leaves (lba : Word32) (n : Word16) (s : State) : CommandLeaves s (readBlock lba n s) := by
  obtain ⟨m, hm, hcall⟩ := lunCall_grown (.read s.curLunIndex (lba + s.scsi.ctx)) s
  unfold readBlock
  dsimp only
  rw [hcall]
  split
  · exact .delivered m (s.scsi.ctx + 1#32) _ _ hm (by split <;> simp) fun _ => by simp
  · exact .after s.scsi.ctx hm (commandLeaves_commandFailed _ _ _ _ _ (by decide) (by decide) (by decide))

theorem execRead10_leaves {lba : Word32} {n : Word16} {s t : State} (h : execRead10 lba n s = .next t) :
    CommandLeaves s t := by
  obtain ⟨l, -, h⟩ := withLun_eq_next h
  split_ifs at h with hn hctx
  · exact Host.Outcome.next.inj h ▸ commandLeaves_ret s 0 (by decide) (by decide)
  · obtain ⟨u, hu, hrun⟩ := (andThen_eq_next _ _ _).1 h
    obtain rfl := checkMediumAccess_eq_next hu
    exact Host.Outcome.next.inj hrun ▸ readBlock_leaves lba n u
  · exact Host.Outcome.next.inj h ▸ readBlock_leaves lba n s

theorem writeError_leaves (s : State) : CommandLeaves s (writeError s) :=
  commandLeaves_commandFailed _ _ _ _ s (by decide) (by decide) (by decide)

/-- The code that asks for a block (rule R328). -/
theorem commandLeaves_blockWanted (s : State) (c : Prop) [Decidable c] :
    CommandLeaves s (s.ret (if c then 3 else 4)) := by
  split
  · exact commandLeaves_ret s 3 (by decide) (by decide)
  · exact commandLeaves_ret s 4 (by decide) (by decide)

theorem writePreload_leaves (lba : Word32) (n : Word16) (s : State) : CommandLeaves s (writePreload lba n s) := by
  obtain ⟨m, hm, hcall⟩ := lunCall_grown (.preload s.curLunIndex lba) s
  unfold writePreload
  dsimp only
  rw [hcall]
  split
  · exact .after s.scsi.ctx hm (commandLeaves_blockWanted _ _)
  · exact .after s.scsi.ctx hm (writeError_leaves _)

theorem writeComplete_leaves (s : State) : CommandLeaves s (writeComplete s) := by
  obtain ⟨m, hm, hcall⟩ := lunCall_grown (.complete s.curLunIndex) s
  unfold writeComplete
  dsimp only
  rw [hcall]
  split
  · exact .after s.scsi.ctx hm (commandLeaves_ret _ 0 (by decide) (by decide))
  · exact .after s.scsi.ctx hm (writeError_leaves _)

/-- A block write is one LUN call, counted, then the request for the next block or the completion (rule R328). -/
theorem writeBlock_leaves (lba : Word32) (n : Word16) (s : State) : CommandLeaves s (writeBlock lba n s) := by
  obtain ⟨m, hm, hcall⟩ :=
    lunCall_grown (.write s.curLunIndex (lba + s.scsi.ctx) (Mem.readRange s.bot.dataBuf 0 512)) s
  unfold writeBlock
  dsimp only
  rw [hcall]
  split
  · split
    · exact .after (s.scsi.ctx + 1#32) hm (commandLeaves_blockWanted _ _)
    · exact .after (s.scsi.ctx + 1#32) hm (writeComplete_leaves _)
  · exact .after s.scsi.ctx hm (writeError_leaves _)

theorem execWrite10_leaves {lba : Word32} {n : Word16} {s t : State} (h : execWrite10 lba n s = .next t) :
    CommandLeaves s t := by
  obtain ⟨l, -, h⟩ := withLun_eq_next h
  split_ifs at h with hin hw hn
  · exact Host.Outcome.next.inj h ▸ commandLeaves_commandFailed _ _ _ _ s (by decide) (by decide) (by decide)
  · exact Host.Outcome.next.inj h ▸ commandLeaves_ret s 0 (by decide) (by decide)
  · obtain ⟨u, hu, hrun⟩ := (andThen_eq_next _ _ _).1 h
    obtain rfl := checkMediumAccess_eq_next hu
    exact Host.Outcome.next.inj hrun ▸ writePreload_leaves lba n u
  · exact Host.Outcome.next.inj h ▸ writeBlock_leaves lba n s

/-- A buffer command that completes is an unsupported one (rule R331). -/
theorem bufferCommand_leaves {s t : State}
    (h : (if s.cfg.hasBufferCmds then .fault .bufferCommandsNotSpecified else .next (unsupported s) : Res) = .next t) :
    CommandLeaves s t := by
  split_ifs at h
  exact Host.Outcome.next.inj h ▸ unsupported_leaves s

/-- What a command block leaves, but for REQUEST SENSE and the vendor commands. -/
theorem exec_cdb_leaves (i : Instr) (s t : State) (hi : i.format = .cdb) (hsense : i ≠ .requestSense)
    (hvendor : ∀ cb, i ≠ .vendor cb) (h : exec i s = .next t) : CommandLeaves s t := by
  cases i with
  | testUnitReady => exact execTestUnitReady_leaves h
  | requestSense => exact absurd rfl hsense
  | inquiry reserved evpd page => exact execInquiry_leaves h
  | modeSense6 => exact execModeSense6_leaves h
  | startStopUnit => exact Host.Outcome.next.inj h ▸ commandLeaves_ret s 0 (by decide) (by decide)
  | preventAllowMediumRemoval => exact Host.Outcome.next.inj h ▸ commandLeaves_ret s 0 (by decide) (by decide)
  | readFormatCapacities => exact execReadFormatCapacities_leaves h
  | readCapacity10 => exact execReadCapacity10_leaves h
  | read10 lba n => exact execRead10_leaves h
  | write10 lba n => exact execWrite10_leaves h
  | writeBuffer => exact bufferCommand_leaves h
  | readBuffer => exact bufferCommand_leaves h
  | vendor cb => exact absurd rfl (hvendor cb)
  | cdbDefault op => exact Host.Outcome.next.inj h ▸ unsupported_leaves s
  | _ => cases hi

/-- A failure sets key and ASC, a success keeps the record (rules R284, R285). -/
theorem CommandLeaves.sense {s t : State} (h : CommandLeaves s t) :
    (t.scsi.code < 0 → t.scsi.sense.key ≠ 0#4 ∧ t.scsi.sense.asc ≠ 0#8)
      ∧ (0 ≤ t.scsi.code → t.scsi.sense = s.scsi.sense) := by
  cases h with
  | succeeded m ctx code hm hcode hmore => exact ⟨fun hneg => absurd hneg (Int.not_lt.2 hcode), fun _ => rfl⟩
  | failed m ctx key asc ascq code hm hcode hkey hasc =>
    exact ⟨fun _ => ⟨hkey, hasc⟩, fun hpos => absurd hpos (Int.not_le.2 hcode)⟩
  | delivered m ctx code bytes hm hcode hbytes =>
    refine ⟨fun hneg => absurd (show code < 0 from hneg) ?_, fun _ => rfl⟩
    omega

/-- Settles O43: what the other commands do to the record is `CommandLeaves.sense`; REQUEST SENSE clears three fields
of it. -/
theorem senseAfterCommands : Obligations.SenseAfterCommands := by
  intro i s t hi hvendor h
  by_cases hsense : i = .requestSense
  · subst hsense
    obtain rfl := Host.Outcome.next.inj h
    exact ⟨fun hneg => absurd hneg (by simp), fun _ => rfl, fun hne => absurd rfl hne⟩
  · obtain ⟨hfail, hkeep⟩ := (exec_cdb_leaves i s t hi hsense hvendor h).sense
    exact ⟨hfail, fun heq => absurd heq hsense, fun _ => hkeep⟩

/-- The fixed fields of a sense record (rule R284). -/
def Sense.Fixed (x : Sense) : Prop :=
  x.responseCode = 0x70#8 ∧ x.information = 0#32 ∧ x.commandSpecific = 0#32 ∧ x.additionalLength = 10#8

/-- What any command can leave (rules R280, R282, R289): the end of a command without a chunk, or a chunk with code 1
or 2, of 1 to 512 bytes for valid parameters. -/
inductive AnyCommandLeaves (s : State) : State → Prop where
  | ended (m : Medium) (ctx : Word32) (sense : Sense) (code : Int) (hm : s.medium.Grown m)
      (hsense : s.scsi.sense.Fixed → sense.Fixed) (hcode : code ≠ 1 ∧ code ≠ 2) :
      AnyCommandLeaves s (s.commandEnded m ctx sense code)
  | delivered (m : Medium) (ctx : Word32) (sense : Sense) (code : Int) (bytes : List Byte) (hm : s.medium.Grown m)
      (hsense : s.scsi.sense.Fixed → sense.Fixed) (hcode : code = 1 ∨ code = 2)
      (hbytes : s.cfg.valid = true → 1 ≤ bytes.length ∧ bytes.length ≤ 512) :
      AnyCommandLeaves s (putChunk bytes (s.commandEnded m ctx sense code))

theorem CommandLeaves.any {s t : State} (h : CommandLeaves s t) : AnyCommandLeaves s t := by
  cases h with
  | succeeded m ctx code hm hcode hmore => exact .ended m ctx _ code hm id hmore
  | failed m ctx key asc ascq code hm hcode hkey hasc =>
    exact .ended m ctx _ code hm (fun _ => ⟨rfl, rfl, rfl, rfl⟩) ⟨by omega, by omega⟩
  | delivered m ctx code bytes hm hcode hbytes => exact .delivered m ctx _ code bytes hm id hcode hbytes

theorem execRequestSense_leaves {s t : State} (h : execRequestSense s = .next t) : AnyCommandLeaves s t := by
  obtain rfl := Host.Outcome.next.inj h
  exact .delivered s.medium s.scsi.ctx { s.scsi.sense with key := 0#4, asc := 0#8, ascq := 0#8 } 1
    (encodeSense s.scsi.sense) (.refl _) id (.inl rfl) fun _ => by simp

/-- A vendor callback's effects leave `ctx` and a sense record with its fixed fields (rule R334 d, e). -/
theorem vendorEffects_leaves (v : VendorAnswer) (s : State) : ∃ ctx sense, (s.scsi.sense.Fixed → sense.Fixed)
    ∧ vendorEffects v s = { s with scsi := { s.scsi with ctx := ctx, sense := sense } } := by
  unfold vendorEffects
  split
  · exact ⟨v.ctx, s.scsi.sense, id, rfl⟩
  · exact ⟨v.ctx, _, fun _ => ⟨rfl, rfl, rfl, rfl⟩, rfl⟩

/-- A vendor command is an unsupported one, or one call whose answer is placed as a chunk or only returned (rule
R333). -/
theorem execVendor_leaves {cb : List Byte} {s t : State} (h : execVendor cb s = .next t) : AnyCommandLeaves s t := by
  obtain ⟨l, hlun, hrun⟩ := withLun_eq_next h
  by_cases hvendor : l.cmdVendor = false
  · rw [if_pos hvendor] at hrun
    exact Host.Outcome.next.inj hrun ▸ (unsupported_leaves s).any
  · rw [execVendor_of_callback cb s l hlun (by simpa using hvendor)] at h
    obtain ⟨m, hm, hcall⟩ : ∃ m, s.medium.Grown m ∧ (s.vendorCalled cb).2 = { s with medium := m } :=
      lunCall_grown _ s
    obtain ⟨ctx, sense, hsense, heffects⟩ := vendorEffects_leaves (s.vendorCalled cb).1.vendor { s with medium := m }
    rw [hcall] at h
    dsimp only at h
    rw [heffects] at h
    split_ifs at h with hcode hlen
    · obtain rfl := Host.Outcome.next.inj h
      exact .delivered m ctx sense _ _ hm hsense hcode fun _ => by omega
    · obtain rfl := Host.Outcome.next.inj h
      exact .ended m ctx sense _ hm hsense (not_or.1 hcode)

/-- What a command block leaves. -/
theorem exec_cdb_anyLeaves (i : Instr) (s t : State) (hi : i.format = .cdb) (h : exec i s = .next t) :
    AnyCommandLeaves s t := by
  by_cases hsense : i = .requestSense
  · subst hsense
    exact execRequestSense_leaves h
  · by_cases hvendor : ∃ cb, i = .vendor cb
    · obtain ⟨cb, rfl⟩ := hvendor
      exact execVendor_leaves h
    · exact (exec_cdb_leaves i s t hi hsense (not_exists.1 hvendor) h).any

/-- Settles O42: a chunk is the only thing a command places outside the target, and it ends at byte 512. -/
theorem scsiCommandsNeverTouchEndpoints : Obligations.ScsiCommandsNeverTouchEndpoints := by
  intro i s t hi h
  cases exec_cdb_anyLeaves i s t hi h with
  | ended m ctx sense code hm hsense hcode => exact ⟨rfl, rfl, rfl, rfl, rfl, rfl, fun _ _ => rfl, hm⟩
  | delivered m ctx sense code bytes hm hsense hcode hbytes =>
    refine ⟨rfl, rfl, rfl, rfl, rfl, rfl, fun a ha => Mem.read_write_other _ _ _ _ ?_, hm⟩
    simp only [List.length_take]
    omega

/-! ## A SCSI call -/

/-- More data follows codes 2 and 3 (rule R39). -/
theorem moreDataOf_eq (code : Int) : moreDataOf code = decide (code = 2 ∨ code = 3) :=
  Bool.eq_iff_iff.2 (by simp [moreDataOf])

/-- Settles O9: the dispatcher is decode, then `exec`, and a block that decodes has 16 bytes. -/
theorem scsiCallRunsDecodedCdb : Obligations.ScsiCallRunsDecodedCdb := by
  intro s n i hdecode
  have hi : decodeCdb s.bot.cbw.cb = i := by
    by_cases hlen : s.bot.cbw.cb.length = 16
    · exact Except.ok.inj ((decodeAs_cdb _ hlen).symm.trans hdecode)
    · simp [decodeAs, hlen] at hdecode
  rw [scsiCall, scsiCommand, scsiRoute_eq, hi]
  congr 1
  funext t
  rw [moreDataOf_eq]

end Sys2Proof.Machine
end

section
/-! PROOFS. The device layer's events and the standard requests (40_usb_device_layer.md, 41_usb_control_requests.md):
whole-word stores (rule R62), data stages (rules R155, R156), the address commit (rule R158), bulk events (rules R226,
R227), and the requests that answer, halt or release (rules R181 to R193, R205). -/

namespace Sys2Proof.Machine

/-! ## Halves of different slots or directions -/

theorem Endpoint.withHalf_comm (e : Endpoint) (d d' : Dir) (h h' : Half) (hd : d ≠ d') :
    (e.withHalf d h).withHalf d' h' = (e.withHalf d' h').withHalf d h := by
  cases d with
  | dIn =>
    cases d' with
    | dIn => exact absurd rfl hd
    | dOut => rfl
  | dOut =>
    cases d' with
    | dIn => rfl
    | dOut => exact absurd rfl hd

/-- Replacing two different halves can be done in either order. -/
theorem State.setHalf_comm (s : State) (n m : Fin 8) (d d' : Dir) (h h' : Half) (hne : n ≠ m ∨ d ≠ d') :
    (s.setHalf n d h).setHalf m d' h' = (s.setHalf m d' h').setHalf n d h := by
  by_cases hnm : n = m
  · subst hnm
    have hd : d ≠ d' := hne.resolve_left fun hn => hn rfl
    simp only [State.setHalf, State.ep_setEp, if_true, State.setEp_setEp, Endpoint.withHalf_comm _ _ _ _ _ hd]
  · simp only [State.setHalf, State.ep_setEp, if_neg (Ne.symm hnm), if_neg hnm]
    exact State.setEp_comm _ _ _ _ _ hnm

/-! ## Whole packet-memory words -/

/-- Settles O12: what `send` stores is the packet filled up to whole words, at the slot's static offset. -/
theorem sendStoresWholeWords : Obligations.SendStoresWholeWords := by
  intro n bytes s t h
  obtain ⟨hlen, -, off, hoff, -, rfl⟩ := (send_eq_next n bytes s t).1 h
  have hpad : padWord bytes = bytes ++ List.replicate ((bytes.length + 3) / 4 * 4 - bytes.length) 0#8 := by
    have hk : (4 - bytes.length % 4) % 4 = (bytes.length + 3) / 4 * 4 - bytes.length := by omega
    rw [padWord, hk]
  refine ⟨off, txOffset_some n off hoff, ?_, fun a ha => ?_⟩
  · rw [← hpad, ← padWord_length, sent_pma, Mem.readRange_write]
  · exact Mem.read_write_other _ _ _ _ (by rwa [padWord_length])

/-! ## Packets received -/

/-- A packet stored in a slot's receive buffer, its half at `v` with this toggle (rules R16, R66). -/
def State.received (s : State) (n : Fin 8) (off : Nat) (v : HalfState) (toggle : Bool) (p : List Byte) : State :=
  { s.setHalf n .dOut ⟨v, toggle, p.length⟩ with pma := Mem.write s.pma off p }

/-- The controller's first effects of an OUT packet (rule R16 a). -/
theorem receiveOut_eq (n : Fin 8) (off : Nat) (p : List Byte) (s : State) (hoff : rxOffset n = some off) :
    receiveOut n p s = s.received n off .nak (! (s.half n .dOut).toggle) p := by
  simp only [receiveOut, storeRx, hoff]
  rfl

/-- The received packet is what the buffer holds. -/
theorem received_rxBuf (s : State) (n : Fin 8) (off : Nat) (v : HalfState) (toggle : Bool) (p : List Byte)
    (hoff : rxOffset n = some off) : (s.received n off v toggle p).rxBuf n = p := by
  have hhalf : (s.received n off v toggle p).half n .dOut = ⟨v, toggle, p.length⟩ := by simp [State.received]
  simp only [State.rxBuf, hoff, hhalf]
  exact Mem.readRange_write _ _ _

/-- A received packet touches its own bytes only. -/
theorem received_pma_other (s : State) (n : Fin 8) (off : Nat) (v : HalfState) (toggle : Bool) (p : List Byte)
    (a : Nat) (ha : ¬ (off ≤ a ∧ a < off + p.length)) :
    Mem.read (s.received n off v toggle p).pma a = Mem.read s.pma a :=
  Mem.read_write_other _ _ _ _ ha

@[simp] theorem received_half (s : State) (n m : Fin 8) (off : Nat) (v : HalfState) (toggle : Bool) (p : List Byte)
    (d : Dir) : (s.received n off v toggle p).half m d
      = if m = n ∧ d = .dOut then ⟨v, toggle, p.length⟩ else s.half m d :=
  State.half_setHalf s n m .dOut d _

/-- Arming EP0's RX half, NAK after every reception, keeps its toggle (rules R143, R155). -/
theorem rearmEp0_eq (s : State) : rearmEp0 s = s.setHalf 0 .dOut { s.half 0 .dOut with state := .valid } := by
  simp [rearmEp0, epSetState, toggleAfter]

/-- After a reception on EP0, only the half's state changes by arming it again (rule R155). -/
theorem rearmEp0_received (s : State) (off : Nat) (v : HalfState) (toggle : Bool) (p : List Byte) :
    rearmEp0 (s.received 0 off v toggle p) = s.received 0 off .valid toggle p := by
  rw [rearmEp0_eq, received_half, if_pos ⟨rfl, rfl⟩]
  exact congrArg (fun u : State => { u with pma := Mem.write s.pma off p }) (s.setHalf_setHalf 0 .dOut _ _)

/-- A STALL on EP0 touches the TX half, a reception the RX half and the buffer. -/
theorem ep0Stalled_received (s : State) (off : Nat) (v : HalfState) (toggle : Bool) (p : List Byte) :
    (s.received 0 off v toggle p).ep0Stalled = s.ep0Stalled.received 0 off v toggle p := by
  rw [State.ep0Stalled, received_half, if_neg (by simp)]
  exact congrArg (fun u : State => { u with pma := Mem.write s.pma off p })
    (s.setHalf_comm 0 0 .dOut .dIn _ _ (.inr (by decide)))

/-! ## EP0's data stage -/

/-- The MSC driver refuses every data stage, and so does the device layer without a driver (rules R153, R156). -/
theorem delegate_refused (a : SetupArgs) (f : State → Res) (s : State) (hf : f s = .next s.ep0Stalled) :
    delegate a f s = .next s.ep0Stalled := by
  unfold delegate
  rw [ep0Stall_eq]
  cases s.driver (ifaceNumber a.wIndex) with
  | none => rfl
  | some d =>
    dsimp only
    split
    · exact hf
    · rfl

/-- A negative `ctrl_req` return stalls (rules R153, R154). -/
theorem finishCtrlReq_negative (s : State) : finishCtrlReq (-1) s = .next s.ep0Stalled := by
  rw [← ep0Stall_eq]
  rfl

/-- What an OUT packet on EP0 does: nothing, or a refusal of delegated data (rule R156). -/
theorem ep0Out_eq (p : List Byte) (s : State) :
    ep0Out p s = .next (if p.length ≠ 0 ∧ delegatedRequest s.usb.setup = true then s.ep0Stalled else s) := by
  have hdata : delegateData s.usb.setup.args s = .next s.ep0Stalled :=
    delegate_refused _ _ s (finishCtrlReq_negative s)
  unfold ep0Out
  rw [hdata]
  by_cases hlen : p.length = 0
  · simp [hlen]
  · by_cases hdel : delegatedRequest s.usb.setup = true
    · simp [hlen, hdel]
    · simp [hlen, hdel]

/-- A latched request is delegated if its type is not standard and its recipient is an interface (rule R156). -/
theorem delegatedRequest_iff (x : Setup) :
    delegatedRequest x = true ↔ x.bmRequestType &&& 0x60#8 ≠ 0x00#8 ∧ x.bmRequestType &&& 0x1F#8 = 0x01#8 := by
  simp [delegatedRequest]

/-- An OUT packet on EP0, enabled: refused or ignored, stored, and the half armed again (rules R155, R156). -/
theorem onRxOut_ep0 (p : List Byte) (s : State) (hen : outEnabled 0 p s = true) :
    onRxOut 0 p s = .next (State.received
      (if p.length ≠ 0 ∧ delegatedRequest s.usb.setup = true then s.ep0Stalled else s)
      0 0x40 .valid (! (s.half 0 .dOut).toggle) p) := by
  have hsome : ¬ (rxOffset 0).isNone = true := by decide
  have hrun : onRxOut 0 p s = .next (rearmEp0 (
      if p.length ≠ 0 ∧ delegatedRequest s.usb.setup = true then (receiveOut 0 p s).ep0Stalled
      else receiveOut 0 p s)) := by
    simp only [onRxOut, if_pos hen, if_neg hsome, if_true, ep0Out_eq, andThen_next]
    rfl
  rw [hrun, receiveOut_eq 0 0x40 p s rfl]
  split
  · rw [ep0Stalled_received, rearmEp0_received]
  · rw [rearmEp0_received]

/-- Settles O15: the packet is stored the same whether the data stage is refused or ignored. -/
theorem ep0DataStage : Obligations.Ep0DataStage := by
  intro p s hpull hlen hvalid
  have hen : outEnabled 0 p s = true := by simp [outEnabled, hpull, hlen, hvalid]
  refine ⟨_, onRxOut_ep0 p s hen, received_rxBuf _ 0 0x40 _ _ p rfl, fun a ha => ?_, ?_⟩
  · refine (received_pma_other _ 0 0x40 _ _ p a ha).trans ?_
    split
    · rfl
    · rfl
  · simp only [delegatedRequest_iff]
    rfl

/-! ## The address commit, bulk events and quiet events -/

/-- Settles O16: the half is NAK with its toggle flipped, then the recorded address decides. -/
theorem addressCommit : Obligations.AddressCommit := by
  intro s hpull hvalid e
  have hen : doneEnabled 0 s = true := by simp [doneEnabled, hpull, hvalid]
  have hrun : onEvent (.txDone 0) s = .next (commitAddress e) := (if_pos hen).trans (if_pos rfl)
  have hpending : e.usb.pendingAddress = s.usb.pendingAddress := rfl
  rw [hrun]
  refine ⟨fun hnone => ?_, fun a ha => ?_⟩
  · rw [commitAddress, hpending, hnone]
  · rw [commitAddress, hpending, ha]
    rfl

/-- Settles O17: the callbacks of rules R226 and R227 set one flag each. -/
theorem bulkEventsSetFlags : Obligations.BulkEventsSetFlags := by
  refine ⟨fun p s hpull hlen hvalid hcb => ?_, fun s hpull hvalid hcb => ?_⟩
  · have hen : outEnabled 2 p s = true := by simp [outEnabled, hpull, hlen, hvalid]
    have hrun : onEvent (.rxOut 2 p) s
        = .next (State.setRxFlag (s.received 2 0x100 .nak (! (s.half 2 .dOut).toggle) p)) := by
      rw [← receiveOut_eq 2 0x100 p s rfl]
      exact (if_pos hen).trans (congrArg (fun c => Host.Outcome.next (runCallback c (receiveOut 2 p s))) hcb)
    exact ⟨_, hrun, received_rxBuf s 2 0x100 .nak (! (s.half 2 .dOut).toggle) p rfl,
      received_pma_other s 2 0x100 .nak (! (s.half 2 .dOut).toggle) p, rfl⟩
  · have hen : doneEnabled 1 s = true := by simp [doneEnabled, hpull, hvalid]
    exact (if_pos hen).trans (congrArg (fun c => Host.Outcome.next (runCallback c (sentIn 1 s))) hcb)

/-- A MediumChange is enabled for a LUN of the table, between transactions (rule R47). -/
theorem mediumEnabled_iff (l : Nat) (s : State) :
    mediumEnabled l s = true ↔ l < s.nLun ∧ s.bot.phase = .awaitCbw ∧ s.bot.rxFlag = false := by
  simp [mediumEnabled, and_assoc]

/-- Settles O18: the LUN's existence and the session decide whether the MediumChange is enabled. -/
theorem quietEvents : Obligations.QuietEvents := by
  intro s
  refine ⟨rfl, rfl, fun l m r hr => ?_, fun l m hl => ?_⟩
  · obtain ⟨hlt, -⟩ := List.getElem?_eq_some_iff.1 hr
    have hmodify : s.scsi.lun.modify l (fun r => { r with state := m }) = s.scsi.lun.set l { r with state := m } := by
      rw [List.modify_eq_set_getElem?, hr]
      rfl
    refine congrArg Host.Outcome.next ?_
    simp only [onMediumChange, mediumEnabled_iff, State.nLun, hlt, true_and, hmodify]
  · exact congrArg Host.Outcome.next (if_neg fun hen => Nat.not_lt.2 hl ((mediumEnabled_iff l s).1 hen).1)

/-- Settles O19, every value by evaluation of the reset state. -/
theorem powerOnValues : Obligations.PowerOnValues := by
  exact ⟨rfl, rfl, rfl, rfl, rfl, by decide, by decide, rfl, rfl, rfl, rfl, rfl, rfl, rfl, rfl, rfl, rfl, rfl, rfl,
    rfl⟩

/-- Settles O20: `onIdle` tests the pull-up, then the first entry of the driver table. -/
theorem bootOrder : Obligations.BootOrder := by
  intro s hin
  have hstep : step s = onIdle s := by rw [step, hin]
  rw [hstep]
  refine ⟨fun hpull => if_pos hpull, fun hpull ds hds => ?_, fun hpull d ds hds => ?_⟩
  · have hdrv : s.driver 0 = none := by simp [State.driver, hds]
    have hlt : ¬ s.nIf ≤ 0 := by simp [State.nIf, hds]
    rw [onIdle, if_neg (by simp [hpull]), hdrv]
    simp only [registerInterface, if_neg hlt, hds, List.set_cons_zero]
  · have hdrv : s.driver 0 = some d := by simp [State.driver, hds]
    rw [onIdle, if_neg (by simp [hpull]), hdrv]
    rfl

/-! ## A SETUP's step -/

/-- The controller's first effects of a SETUP packet (rule R16 c). -/
theorem receiveSetup_eq (p : List Byte) (s : State) :
    receiveSetup p s
      = (s.received 0 0x40 .nak (s.half 0 .dOut).toggle p).setHalf 0 .dIn { s.half 0 .dIn with state := .nak } := by
  have hin : (s.received 0 0x40 .nak (s.half 0 .dOut).toggle p).half 0 .dIn = s.half 0 .dIn := by simp
  rw [← hin]
  rfl

/-- Both EP0 halves are NAK after a SETUP, with their toggles kept (rule R16 c; log 34). -/
theorem receiveSetup_half (p : List Byte) (s : State) :
    (receiveSetup p s).half 0 .dIn = { s.half 0 .dIn with state := .nak }
      ∧ (receiveSetup p s).half 0 .dOut = { s.half 0 .dOut with state := .nak, count := p.length } := by
  rw [receiveSetup_eq]
  simp

/-- A SETUP leaves the other slots alone. -/
theorem receiveSetup_ep_other (p : List Byte) (s : State) (n : Fin 8) (h : n ≠ 0) :
    (receiveSetup p s).ep n = s.ep n := by
  rw [receiveSetup_eq, State.ep_setHalf, if_neg h]
  exact (State.ep_setHalf s 0 n .dOut _).trans (if_neg h)

/-- The SETUP packet is what EP0's receive buffer holds. -/
theorem receiveSetup_rxBuf (p : List Byte) (s : State) : (receiveSetup p s).rxBuf 0 = p := by
  refine (State.rxBuf_congr (s.received 0 0x40 .nak (s.half 0 .dOut).toggle p) (receiveSetup p s) 0 rfl ?_).trans
    (received_rxBuf s 0 0x40 _ _ p rfl)
  rw [(receiveSetup_half p s).2, received_half, if_pos ⟨rfl, rfl⟩]

/-- A SETUP's step runs the decoded instruction on the latched packet (rules R148, R149, R155). -/
theorem onRxSetup_eq (p : List Byte) (x : Setup) (s : State) (hen : setupEnabled p s = true)
    (hx : decodeSetup p = some x) :
    onRxSetup p s = andThen (exec (decodeFirst x) (latchSetup x (receiveSetup p s))) fun s => .next (rearmEp0 s) := by
  simp only [onRxSetup, if_pos hen, hx]

/-- Settles O7: what the instruction starts from is the stored and latched packet with both EP0 halves NAK. -/
theorem stepRunsSetup : Obligations.StepRunsSetup := by
  intro s p es x i hin hen hx hi
  have hi' : decodeFirst x = i := by
    obtain ⟨y, hy, rfl⟩ := (decodeAs_setup_eq_ok p i).1 hi
    rw [Option.some.inj (hx.symm.trans hy)]
  have hlen : p.length = 8 := by
    by_contra hlen
    simp [(decodeSetup_eq_none p).2 hlen] at hx
  obtain ⟨hdIn, hdOut⟩ := receiveSetup_half p { s with inputs := es }
  rw [hlen] at hdOut
  refine ⟨latchSetup x (receiveSetup p { s with inputs := es }), ?_, rfl, ?_, fun a ha => ?_, ?_, rfl, hdIn, hdOut,
    fun n hn => ?_⟩
  · have hstep : step s = onRxSetup p { s with inputs := es } := by
      rw [step, hin]
      rfl
    rw [hstep, onRxSetup_eq p x { s with inputs := es } hen hx, hi']
    simp only [rearmEp0_eq]
  · exact receiveSetup_rxBuf p _
  · exact received_pma_other _ 0 0x40 .nak (s.half 0 .dOut).toggle p a (by rwa [hlen])
  · rfl
  · exact receiveSetup_ep_other p _ n hn

/-! ## The half an endpoint request names -/

/-- A bit as a one-bit field and as a Boolean. -/
theorem extract_bit_iff {w : Nat} (v : BitVec w) (k : Nat) : v.extractLsb' k 1 = 1#1 ↔ v.getLsbD k = true := by
  constructor
  · intro h
    simpa using congrArg (·.getLsbD 0) h
  · intro h
    apply BitVec.eq_of_getLsbD_eq
    intro i hi
    obtain rfl : i = 0 := by omega
    simp [h]

/-- The direction of an endpoint address is bit 7 (rule R67). -/
theorem epDir_eq (wIndex : Word16) : epDir wIndex = if wIndex.getLsbD 7 then .dIn else .dOut := by
  simp only [epDir, extract_bit_iff]

/-- `ep_half` finds the half wIndex names (rule R184). -/
theorem epHalf_eq_some (wIndex : Word16) (s : State) (n : Fin 8) (d : Dir) :
    epHalf wIndex s = some (n, d) ↔ NamesHalf wIndex s n d := by
  unfold epHalf NamesHalf
  rw [← epDir_eq]
  by_cases hlt : epNumber wIndex < 8
  · rw [dif_pos hlt]
    constructor
    · intro h
      split_ifs at h with hstate
      obtain ⟨rfl, rfl⟩ := Prod.mk.inj (Option.some.inj h)
      exact ⟨rfl, rfl, hstate⟩
    · rintro ⟨hn, rfl, hstate⟩
      obtain rfl : n = ⟨epNumber wIndex, hlt⟩ := Fin.ext hn
      exact if_neg hstate
  · rw [dif_neg hlt]
    exact ⟨nofun, fun ⟨hn, _⟩ => absurd (hn.symm.trans_lt n.isLt) hlt⟩

/-- `ep_half` finds none where wIndex names none (rule R184). -/
theorem epHalf_eq_none (wIndex : Word16) (s : State) : epHalf wIndex s = none ↔ ∀ n d, ¬ NamesHalf wIndex s n d := by
  simp only [← epHalf_eq_some, Option.eq_none_iff_forall_ne_some, Prod.forall, ne_eq]

/-! ## GET_STATUS -/

theorem execGetStatusEndpoint_of_half (a : SetupArgs) (s : State) (n : Fin 8) (d : Dir)
    (h : epHalf a.wIndex s = some (n, d)) :
    execGetStatusEndpoint a s
      = ep0Reply a.wLength [if (s.half n d).state = .stall then 0x01#8 else 0x00#8, 0x00#8] s := by
  rw [execGetStatusEndpoint, h]
  simp [Half.halted]

theorem execGetStatusEndpoint_absent (a : SetupArgs) (s : State) (h : epHalf a.wIndex s = none) :
    execGetStatusEndpoint a s = .next s.ep0Stalled := by
  rw [execGetStatusEndpoint, h, ep0Stall_eq]

/-- A recipient of 3 or more is none of the three that GET_STATUS knows. -/
theorem execGetStatus_other (rcp : BitVec 5) (a : SetupArgs) (s : State) (h : 3 ≤ rcp.toNat) :
    execGetStatus rcp a s = .next s.ep0Stalled := by
  have hne (k : BitVec 5) (hk : k.toNat < 3) : ¬ rcp = k := fun heq => by
    subst heq
    omega
  rw [execGetStatus, if_neg (hne 0#5 (by decide)), if_neg (hne 1#5 (by decide)), if_neg (hne 2#5 (by decide)),
    execGetStatusDefault, ep0Stall_eq]

/-- Settles O21: recipient by recipient; for an endpoint, `ep_half` is the half the statement names. -/
theorem getStatus : Obligations.GetStatus := by
  intro a s hready
  refine ⟨fun i hi => ?_, fun i hi => ?_, fun rcp hrcp i hi => ?_⟩
  · have hexec : exec i s = ep0Reply a.wLength [0x00#8, 0x00#8] s := by
      rcases hi with rfl | rfl | rfl | rfl <;> rfl
    rw [hexec]
    exact ep0Reply_queued _ _ s hready (by simp)
  · have hexec : exec i s = execGetStatusEndpoint a s := by
      rcases hi with rfl | rfl <;> rfl
    rw [hexec]
    refine ⟨fun n d hnames => ?_, fun hnone => ?_⟩
    · rw [execGetStatusEndpoint_of_half a s n d ((epHalf_eq_some _ _ _ _).2 hnames)]
      exact ep0Reply_queued _ _ s hready (by simp)
    · exact execGetStatusEndpoint_absent a s ((epHalf_eq_none _ _).2 hnone)
  · rcases hi with rfl | rfl
    · exact congrArg Host.Outcome.next (ep0Stall_eq s)
    · exact execGetStatus_other rcp a s hrcp

/-! ## GET_DESCRIPTOR -/

/-- The UTF-16LE bytes of a text (rule R105). -/
theorem utf16le_eq (t : List Word16) : utf16le t = t.flatMap fun c => [c.extractLsb' 0 8, c.extractLsb' 8 8] := by
  induction t with
  | nil => rfl
  | cons c t ih =>
    rw [utf16le, ih]
    rfl

@[simp] theorem utf16le_length (t : List Word16) : (utf16le t).length = 2 * t.length := by
  induction t with
  | nil => rfl
  | cons c t ih =>
    simp only [utf16le, putLe16, List.length_append, ih, List.length_cons, List.length_nil]
    omega

/-- String descriptors are at most 62 bytes long (rules R8, R105). -/
theorem descString_length (c : Config) (i : Nat) (bytes : List Byte) (hvalid : c.valid = true)
    (h : descString c i = some bytes) : bytes.length ≤ 64 := by
  cases i with
  | zero =>
    obtain rfl := Option.some.inj h
    simp
  | succ k =>
    simp only [descString] at h
    split at h
    · cases h
    · rename_i t ht
      obtain rfl := Option.some.inj h
      have := (config_bounds c hvalid).1 t (List.mem_of_getElem? ht)
      simp
      omega

theorem execGetDescriptorString_some (rcp : BitVec 5) (index : Byte) (wIndex wLength : Word16) (bytes : List Byte)
    (s : State) (h : descString s.cfg index.toNat = some bytes) :
    execGetDescriptorString rcp index wIndex wLength s = ep0Reply wLength bytes s := by
  rw [execGetDescriptorString, h]

theorem execGetDescriptorString_none (rcp : BitVec 5) (index : Byte) (wIndex wLength : Word16)
    (s : State) (h : descString s.cfg index.toNat = none) :
    execGetDescriptorString rcp index wIndex wLength s = .next s.ep0Stalled := by
  rw [execGetDescriptorString, h, ep0Stall_eq]

/-- A GET_DESCRIPTOR packet runs the request of its type (rule R106). -/
theorem exec_getDescriptor_append (rcp : BitVec 5) (type index : Byte) (wIndex wLength : Word16) (s : State) :
    exec (.getDescriptor rcp ⟨type ++ index, wIndex, wLength⟩) s =
      if type = 0x01#8 then execGetDescriptorDevice rcp index wIndex wLength s
      else if type = 0x02#8 then execGetDescriptorConfiguration rcp index wIndex wLength s
      else if type = 0x03#8 then execGetDescriptorString rcp index wIndex wLength s
      else if type = 0x06#8 then execGetDescriptorDeviceQualifier rcp index wIndex wLength s
      else execGetDescriptorDefault rcp type index wIndex wLength s := by
  change execGetDescriptor rcp _ s = _
  simp only [execGetDescriptor, high_byte, low_byte]

/-- Settles O22: type by type, each block within EP0's packet. -/
theorem getDescriptor : Obligations.GetDescriptor := by
  intro rcp type index wIndex wLength s hready hvalid first answers
  have hfirst := exec_getDescriptor_append rcp type index wIndex wLength s
  have hanswers (i : Instr) (bytes : List Byte) (hlen : bytes.length ≤ 64)
      (hexec : exec i s = ep0Reply wLength bytes s) :
      answers i bytes := by
    simp only [answers, hexec]
    exact ep0Reply_queued _ _ s hready hlen
  refine ⟨fun i hi => ?_, fun i hi => ?_, fun i hi => ?_, fun i hi => ?_, fun h1 h2 h3 h6 i hi => ?_⟩
  · refine hanswers i descDevice (by simp [descDevice]) ?_
    rcases hi with rfl | ⟨rfl, rfl⟩
    · rfl
    · exact hfirst
  · refine hanswers i (descConfig s.cfg) (by simp [descConfig]) ?_
    rcases hi with rfl | ⟨rfl, rfl⟩
    · rfl
    · exact hfirst
  · refine hanswers i descQualifier (by simp [descQualifier]) ?_
    rcases hi with rfl | ⟨rfl, rfl⟩
    · rfl
    · exact hfirst
  · have hexec : exec i s = execGetDescriptorString rcp index wIndex wLength s := by
      rcases hi with rfl | ⟨rfl, rfl⟩
      · rfl
      · exact hfirst
    have hstring (bytes : List Byte) (h : descString s.cfg index.toNat = some bytes) : answers i bytes :=
      hanswers i bytes (descString_length s.cfg _ bytes hvalid h)
        (hexec.trans (execGetDescriptorString_some rcp index wIndex wLength bytes s h))
    refine ⟨fun hzero => ?_, fun k text hk htext => ?_, fun hlast => ?_⟩
    · refine hstring _ ?_
      subst hzero
      rfl
    · refine hstring _ ?_
      rw [hk, ← utf16le_eq]
      simp only [descString, htext]
    · refine hexec.trans (execGetDescriptorString_none rcp index wIndex wLength s ?_)
      obtain ⟨k, hk⟩ : ∃ k, index.toNat = k + 1 := ⟨index.toNat - 1, by omega⟩
      rw [hk, descString, List.getElem?_eq_none (by omega)]
  · have hstall : execGetDescriptorDefault rcp type index wIndex wLength s = .next s.ep0Stalled :=
      congrArg Host.Outcome.next (ep0Stall_eq s)
    rcases hi with rfl | rfl
    · exact hstall
    · refine hfirst.trans ?_
      rw [if_neg h1, if_neg h2, if_neg h3, if_neg h6, hstall]

/-! ## CLEAR_FEATURE and SET_FEATURE -/

/-- The state of a half whose halt is cleared (rules R186, R228). -/
def State.releasedState (s : State) (n : Fin 8) (d : Dir) : HalfState :=
  match (s.ep n).cbRelease with
  | some _ => if s.bot.phase = .awaitCbw ∧ n = 2 then .valid else .nak
  | none => if d = .dOut then .valid else .nak

/-- The session after the release decision: `err_flag` set where the driver keeps the half NAK (rule R228). -/
def State.releasedBot (s : State) (n : Fin 8) : Bot :=
  if (s.ep n).cbRelease = none ∨ (s.bot.phase = .awaitCbw ∧ n = 2) then s.bot else { s.bot with errFlag := true }

/-- The release decision in the terms of the statements (rules R186, R228). -/
theorem releaseHalf_eq (n : Fin 8) (d : Dir) (s : State) :
    (if (releaseHalf n d s).1 = 0 then HalfState.valid else .nak) = s.releasedState n d
      ∧ (releaseHalf n d s).2 = { s with bot := s.releasedBot n } := by
  unfold releaseHalf State.releasedState State.releasedBot mscRelease
  cases (s.ep n).cbRelease with
  | none => cases d <;> exact ⟨rfl, rfl⟩
  | some c =>
    by_cases hkeep : s.bot.phase = .awaitCbw ∧ n = 2
    · simp [hkeep]
    · simp [hkeep, State.setErrFlag]

theorem releasedState_ne_stall (s : State) (n : Fin 8) (d : Dir) : s.releasedState n d ≠ .stall := by
  unfold State.releasedState
  split
  · split <;> simp
  · split <;> simp

/-- Clearing a halt: the half's state and toggle, and `err_flag`, by the release decision (rules R143, R186, R228). -/
theorem clearHalt_eq (n : Fin 8) (d : Dir) (s : State) :
    clearHalt n d s = { s.setHalf n d
      { state := s.releasedState n d
        toggle := if (s.half n d).state = .stall ∧ n ≠ 0 then false else (s.half n d).toggle
        count := (s.half n d).count } with bot := s.releasedBot n } := by
  obtain ⟨hstate, hbot⟩ := releaseHalf_eq n d s
  have htoggle : toggleAfter n (s.half n d) (s.releasedState n d)
      = if (s.half n d).state = .stall ∧ n ≠ 0 then false else (s.half n d).toggle := by
    simp [toggleAfter, releasedState_ne_stall]
  rw [clearHalt, hstate, hbot, ← htoggle]
  rfl

/-- Clearing a halt leaves EP0 idle where it was (rules R16 c, R228). -/
theorem clearHalt_ep0Ready (n : Fin 8) (d : Dir) (s : State) (h : s.ep0Ready) : (clearHalt n d s).ep0Ready := by
  obtain ⟨hnak, hsize⟩ := h
  rw [clearHalt_eq]
  refine ⟨?_, hsize⟩
  rw [State.half_mk, State.half_setHalf]
  split
  · rename_i hsame
    obtain ⟨rfl, rfl⟩ := hsame
    unfold State.releasedState
    split
    · simp
    · rfl
  · exact hnak

/-- An endpoint request with a selector other than ENDPOINT_HALT, or for no half, stalls (rules R184, R186, R189). -/
theorem execClearFeatureEndpoint_stalls (a : SetupArgs) (s : State)
    (h : a.wValue ≠ 0#16 ∨ epHalf a.wIndex s = none) : execClearFeatureEndpoint a s = .next s.ep0Stalled := by
  unfold execClearFeatureEndpoint
  rw [ep0Stall_eq]
  by_cases hvalue : a.wValue ≠ 0#16
  · rw [if_pos hvalue]
  · rw [if_neg hvalue, h.resolve_left hvalue]

theorem execClearFeatureEndpoint_of_half (a : SetupArgs) (s : State) (n : Fin 8) (d : Dir) (hvalue : a.wValue = 0#16)
    (h : epHalf a.wIndex s = some (n, d)) : execClearFeatureEndpoint a s = ep0Ack (clearHalt n d s) := by
  rw [execClearFeatureEndpoint, if_neg (not_not.2 hvalue), h]

/-- A recipient other than the device and an endpoint stalls (rule R187). -/
theorem execClearFeature_other (rcp : BitVec 5) (a : SetupArgs) (s : State) (h0 : rcp ≠ 0#5) (h2 : rcp ≠ 2#5) :
    execClearFeature rcp a s = .next s.ep0Stalled := by
  rw [execClearFeature, if_neg h0, if_neg h2, execClearFeatureDefault, ep0Stall_eq]

/-- Settles O24: recipient by recipient; the acknowledgement is queued on the state with the halt cleared. -/
theorem clearFeature : Obligations.ClearFeature := by
  intro a s hready
  refine ⟨fun i hi => ?_, fun i hi => ?_, fun rcp h0 h2 i hi => ?_⟩
  · have hexec : exec i s = ep0Ack s := by
      rcases hi with rfl | rfl <;> rfl
    rw [hexec]
    exact ep0Ack_queued s hready
  · have hexec : exec i s = execClearFeatureEndpoint a s := by
      rcases hi with rfl | rfl <;> rfl
    rw [hexec]
    simp only [← epHalf_eq_none]
    simp only [← epHalf_eq_some]
    refine ⟨fun n d hvalue hhalf => ?_, execClearFeatureEndpoint_stalls a s⟩
    rw [execClearFeatureEndpoint_of_half a s n d hvalue hhalf]
    obtain ⟨t, hack, hqueued⟩ := ep0Ack_queued _ (clearHalt_ep0Ready n d s hready)
    exact ⟨clearHalt n d s, t, hack, hqueued, clearHalt_eq n d s⟩
  · rcases hi with rfl | rfl
    · exact congrArg Host.Outcome.next (ep0Stall_eq s)
    · exact execClearFeature_other rcp a s h0 h2

/-- Halting a half keeps its toggle (rule R143). -/
theorem epSetState_stall (n : Fin 8) (d : Dir) (s : State) :
    epSetState n d .stall s = s.setHalf n d { s.half n d with state := .stall } := by
  simp [epSetState, toggleAfter]

/-- `s` with a half halted, but for endpoint 0 (rule R189). -/
def State.halted (s : State) (n : Fin 8) (d : Dir) : State :=
  if n = 0 then s else s.setHalf n d { s.half n d with state := .stall }

/-- A halt leaves EP0 alone (rule R189). -/
theorem halted_ep0Ready (n : Fin 8) (d : Dir) (s : State) (h : s.ep0Ready) : (s.halted n d).ep0Ready := by
  unfold State.halted
  split
  · exact h
  · rename_i hn
    refine ⟨?_, h.2⟩
    rw [State.half_setHalf, if_neg fun hsame => hn hsame.1.symm]
    exact h.1

/-- An endpoint request with a selector other than ENDPOINT_HALT, or for no half, stalls (rules R184, R189). -/
theorem execSetFeatureEndpoint_stalls (a : SetupArgs) (s : State)
    (h : a.wValue ≠ 0#16 ∨ epHalf a.wIndex s = none) : execSetFeatureEndpoint a s = .next s.ep0Stalled := by
  unfold execSetFeatureEndpoint
  rw [ep0Stall_eq]
  by_cases hvalue : a.wValue ≠ 0#16
  · rw [if_pos hvalue]
  · rw [if_neg hvalue, h.resolve_left hvalue]

theorem execSetFeatureEndpoint_of_half (a : SetupArgs) (s : State) (n : Fin 8) (d : Dir) (hvalue : a.wValue = 0#16)
    (h : epHalf a.wIndex s = some (n, d)) : execSetFeatureEndpoint a s = ep0Ack (s.halted n d) := by
  rw [execSetFeatureEndpoint, if_neg (not_not.2 hvalue), h]
  simp only [ne_eq, ite_not, epSetState_stall, State.halted]

/-- A recipient other than the device and an endpoint stalls (rule R189). -/
theorem execSetFeature_other (rcp : BitVec 5) (a : SetupArgs) (s : State) (h0 : rcp ≠ 0#5) (h2 : rcp ≠ 2#5) :
    execSetFeature rcp a s = .next s.ep0Stalled := by
  rw [execSetFeature, if_neg h0, if_neg h2, execSetFeatureDefault, ep0Stall_eq]

/-- Settles O25: recipient by recipient; the acknowledgement is queued on the state with the half halted. -/
theorem setFeature : Obligations.SetFeature := by
  intro a s hready
  refine ⟨fun i hi => ?_, fun i hi => ?_, fun rcp h0 h2 i hi => ?_⟩
  · have hexec : exec i s = ep0Ack s := by
      rcases hi with rfl | rfl <;> rfl
    rw [hexec]
    exact ep0Ack_queued s hready
  · have hexec : exec i s = execSetFeatureEndpoint a s := by
      rcases hi with rfl | rfl <;> rfl
    rw [hexec]
    simp only [← epHalf_eq_none]
    simp only [← epHalf_eq_some]
    refine ⟨fun n d hvalue hhalf => ?_, execSetFeatureEndpoint_stalls a s⟩
    rw [execSetFeatureEndpoint_of_half a s n d hvalue hhalf]
    exact ep0Ack_queued _ (halted_ep0Ready n d s hready)
  · rcases hi with rfl | rfl
    · exact congrArg Host.Outcome.next (ep0Stall_eq s)
    · exact execSetFeature_other rcp a s h0 h2

/-! ## Refused class requests -/

/-- A delegated key the MSC driver does not know is refused (rules R111, R205). -/
theorem mscCtrlReq_refused (bm rq : Byte) (a : SetupArgs) (s : State) (hlun : ¬ (bm = 0xA1#8 ∧ rq = 0xFE#8))
    (hreset : ¬ (bm = 0x21#8 ∧ rq = 0xFF#8)) : mscCtrlReq bm rq a s = .next s.ep0Stalled := by
  rw [mscCtrlReq, if_neg hlun, if_neg hreset]
  exact finishCtrlReq_negative s

/-- No delegation reaches a driver without a `ctrl_req` (rule R153). -/
theorem delegate_unserved (a : SetupArgs) (f : State → Res) (s : State)
    (h : ∀ d, s.driver (ifaceNumber a.wIndex) = some d → d.ctrlReq = false) : delegate a f s = .next s.ep0Stalled := by
  unfold delegate
  rw [ep0Stall_eq]
  cases hd : s.driver (ifaceNumber a.wIndex) with
  | none => rfl
  | some d => exact if_neg (by simp [h d hd])

/-- The two class requests of the MSC driver by direction and request (rule R111). -/
theorem classKey_iff (dir : BitVec 1) :
    (dir ++ 0b01#2 ++ 0b00001#5 = 0xA1#8 ↔ dir = 1#1) ∧ (dir ++ 0b01#2 ++ 0b00001#5 = 0x21#8 ↔ dir = 0#1) := by
  revert dir
  decide

/-- A vendor or reserved key is none of the MSC driver's (rule R111). -/
theorem otherKey_ne (dir : BitVec 1) :
    (dir ++ 0b10#2 ++ 0b00001#5 ≠ 0xA1#8 ∧ dir ++ 0b10#2 ++ 0b00001#5 ≠ 0x21#8)
      ∧ dir ++ 0b11#2 ++ 0b00001#5 ≠ 0xA1#8 ∧ dir ++ 0b11#2 ++ 0b00001#5 ≠ 0x21#8 := by
  revert dir
  decide

/-- Settles O31: the driver refuses what it does not know, and the device layer what no driver takes. -/
theorem delegatedRequestsRefused : Obligations.DelegatedRequestsRefused := by
  intro bm rq dir a s
  obtain ⟨⟨hvendorLun, hvendorReset⟩, hreservedLun, hreservedReset⟩ := otherKey_ne dir
  refine ⟨finishCtrlReq_negative s, ?_, ?_, fun h => ?_⟩
  · exact delegate_refused a _ s
      (mscCtrlReq_refused _ rq a s (fun h => hvendorLun h.1) fun h => hvendorReset h.1)
  · exact delegate_refused a _ s
      (mscCtrlReq_refused _ rq a s (fun h => hreservedLun h.1) fun h => hreservedReset h.1)
  · obtain ⟨hlun, hreset⟩ := classKey_iff dir
    rcases h with ⟨h1, h0⟩ | hno
    · exact delegate_refused a _ s
        (mscCtrlReq_refused _ rq a s (fun h => h1 ⟨hlun.1 h.1, h.2⟩) fun h => h0 ⟨hreset.1 h.1, h.2⟩)
    · exact delegate_unserved a _ s fun d hd => hno d ((driver_eq_some _ _ _).1 hd)

end Sys2Proof.Machine
end

section
/-! PROOFS. The BOT sequencer's transactions (42_bot_sequencer.md): the thirteen cases (rules R233 to R235), payload
(rule R243), data-in (rules R240 to R242), the status phase (rules R248, R249). -/

namespace Sys2Proof.Machine

/-! ## The host's direction -/

/-- No data expected (rule R95). -/
theorem hostClass_hn {c : Cbw} (h : c.dtl = 0#32) : hostClass c = .hn := if_pos h

/-- Data expected from the device (rule R95). -/
theorem hostClass_hi {c : Cbw} (h : c.dtl ≠ 0#32) (hflag : c.flags.getLsbD 7 = true) : hostClass c = .hi :=
  (if_neg h).trans (if_pos ((extract_bit_iff c.flags 7).2 hflag))

/-- Data announced to the device (rule R95). -/
theorem hostClass_ho {c : Cbw} (h : c.dtl ≠ 0#32) (hflag : c.flags.getLsbD 7 = false) : hostClass c = .ho :=
  (if_neg h).trans (if_neg fun hbit => Bool.eq_false_iff.1 hflag ((extract_bit_iff c.flags 7).1 hbit))

/-! ## A SCSI call -/

/-- A SCSI call leaves what its command leaves, `more_data` following the code (rules R39, R281). -/
theorem scsiCall_eq_next {n : Word32} {s t : State} (h : scsiCall n s = .next t) :
    ∃ u, AnyCommandLeaves { s with scsi := { s.scsi with inLen := n } } u
      ∧ t = { u with bot := { u.bot with moreData := moreDataOf u.scsi.code } } := by
  rw [scsiCall, andThen_eq_next] at h
  obtain ⟨u, hu, ht⟩ := h
  rw [scsiCommand, scsiRoute_eq] at hu
  exact ⟨u, exec_cdb_anyLeaves _ _ u (decodeCdb_format _) hu, (Host.Outcome.next.inj ht).symm⟩

/-- Of the session, a SCSI call writes the data buffer, `data_len` and `more_data` alone (rule R280). -/
theorem scsiCall_bot {n : Word32} {s t : State} (h : scsiCall n s = .next t) :
    t.bot = { s.bot with dataBuf := t.bot.dataBuf, dataLen := t.bot.dataLen, moreData := moreDataOf t.scsi.code } := by
  obtain ⟨u, hu, rfl⟩ := scsiCall_eq_next h
  cases hu with
  | ended => rfl
  | delivered => rfl

/-! ## Command phase -/

/-- A CBW is meaningful by its length, its LUN and its padding (rules R117, R233). -/
theorem meaningfulCbw_iff (c : Cbw) (s : State) :
    meaningfulCbw c s = true ↔
      1 ≤ c.cbLength.toNat ∧ c.cbLength.toNat ≤ 16 ∧ c.lun.toNat < s.scsi.lun.length
        ∧ ∀ b ∈ c.cb.drop c.cbLength.toNat, b = 0#8 := by
  have hn : s.scsi.lun.length = s.nLun := rfl
  simp [meaningfulCbw, hn, and_assoc]

/-- A meaningful CBW is classified once its command has run (rules R233, R234). -/
theorem execCbw_eq (c : Cbw) (s u : State) (hc : meaningfulCbw c s = true)
    (hcall : scsiCall 0#32 (acceptCbw c s) = .next u) : execCbw c s = botClassify u := by
  rw [execCbw, if_pos hc, hcall, andThen_next]

/-- `s` with the status of a completed command: failed for a negative code (rules R37, R282). -/
def State.completed (s : State) : State := if s.scsi.code < 0 then s.setStatus 1#8 else s

theorem completed_cbw (s : State) : s.completed.bot.cbw = s.bot.cbw := by
  unfold State.completed
  split <;> rfl

theorem completed_bulkInReady (s : State) (h : s.bulkInReady) : s.completed.bulkInReady := by
  unfold State.completed
  split <;> exact h

/-- A command without data is placed by the host's direction: cases 1, 4 and 9 (rule R234). -/
theorem botClassify_completed (s : State) (h : s.scsi.code = 0 ∨ s.scsi.code = -1 ∨ s.scsi.code = -3) :
    (hostClass s.bot.cbw = .hn → botClassify s = enterAwaitCsw s.completed)
      ∧ (hostClass s.bot.cbw = .hi → botClassify s = .next (botStall .dIn s.completed))
      ∧ (hostClass s.bot.cbw = .ho → botClassify s = .next (enterDiscard s.completed)) := by
  have hrun : botClassify s = match hostClass s.completed.bot.cbw with
      | .hn => enterAwaitCsw s.completed
      | .hi => .next (botStall .dIn s.completed)
      | .ho => .next (enterDiscard s.completed) := if_pos h
  rw [completed_cbw] at hrun
  exact ⟨fun hc => by rw [hrun, hc], fun hc => by rw [hrun, hc], fun hc => by rw [hrun, hc]⟩

/-- A command that sends is placed by the host's direction: cases 2, 5 to 7 and 10 (rule R234). -/
theorem botClassify_sending (s : State) (h : s.scsi.code = 1 ∨ s.scsi.code = 2) :
    (hostClass s.bot.cbw = .hn → botClassify s = phaseErrorNow s)
      ∧ (hostClass s.bot.cbw = .hi →
          botClassify s = sendFragment { s with bot := { s.bot with dataOffset := 0#32, phase := .dataIn } })
      ∧ (hostClass s.bot.cbw = .ho → botClassify s = phaseErrorStall .dOut s) := by
  have hrun : botClassify s = match hostClass s.bot.cbw with
      | .hn => phaseErrorNow s
      | .hi => sendFragment { s with bot := { s.bot with dataOffset := 0#32, phase := .dataIn } }
      | .ho => phaseErrorStall .dOut s := by
    refine (if_neg ?_).trans (if_pos h)
    omega
  exact ⟨fun hc => by rw [hrun, hc], fun hc => by rw [hrun, hc], fun hc => by rw [hrun, hc]⟩

/-- A command that wants data is placed by the host's direction: cases 3, 8 and 11 to 13 (rule R234). -/
theorem botClassify_wanting (s : State) (h : s.scsi.code = 3 ∨ s.scsi.code = 4) :
    (hostClass s.bot.cbw = .hn → botClassify s = phaseErrorNow s)
      ∧ (hostClass s.bot.cbw = .hi → botClassify s = phaseErrorStall .dIn s)
      ∧ (hostClass s.bot.cbw = .ho → botClassify s = .next (armOut
          { s with bot := { s.bot with dataLen := 512#32, dataOffset := 0#32, phase := .dataOut } })) := by
  have hrun : botClassify s = match hostClass s.bot.cbw with
      | .hn => phaseErrorNow s
      | .hi => phaseErrorStall .dIn s
      | .ho => .next (armOut
          { s with bot := { s.bot with dataLen := 512#32, dataOffset := 0#32, phase := .dataOut } }) := by
    refine (if_neg ?_).trans ((if_neg ?_).trans (if_pos h))
    · omega
    · omega
  exact ⟨fun hc => by rw [hrun, hc], fun hc => by rw [hrun, hc], fun hc => by rw [hrun, hc]⟩

/-- Every other code stops (rules R234, R282; log 36). -/
theorem botClassify_other (s : State) (h : s.scsi.code = -2 ∨ s.scsi.code < -3 ∨ 4 < s.scsi.code) :
    botClassify s = .fault .scsiReturnCodeOutOfRange := by
  refine (if_neg ?_).trans ((if_neg ?_).trans (if_neg ?_))
  · omega
  · omega
  · omega

/-- A phase error without a stall leaves the CSW with status 2 queued (rule R352). -/
theorem phaseErrorNow_queued (s : State) (h : s.bulkInReady) :
    ∃ t, phaseErrorNow s = .next t ∧ CswQueued (s.setStatus 2#8) t :=
  enterAwaitCsw_queued (s.setStatus 2#8) h

/-- A phase error with a stall (rule R352). -/
theorem phaseErrorStall_eq (d : Dir) (s : State) : phaseErrorStall d s = .next ((s.setStatus 2#8).bulkStalled d) := by
  rw [phaseErrorStall, botStall_eq]

/-- Settles O44: what the command leaves decides by its code, and the CBW, which it has not touched, by its
direction. -/
theorem cbwThirteenCases : Obligations.CbwThirteenCases := by
  intro c s u h1 h16 hlun hpad hcall hready status code
  have hexec : exec (.cbw c) s = botClassify u :=
    execCbw_eq c s u ((meaningfulCbw_iff c s).2 ⟨h1, h16, hlun, hpad⟩) hcall
  have hbot := scsiCall_bot hcall
  have hcbw : u.bot.cbw = c := by rw [hbot]
  have hcsw : u.bot.csw = ⟨c.tag, c.dtl, 0#8⟩ := by rw [hbot]
  have hmore : u.bot.moreData = decide (code = 2 ∨ code = 3) := by
    rw [hbot]
    exact moreDataOf_eq code
  have hn (h : c.dtl = 0#32) : hostClass u.bot.cbw = .hn := hostClass_hn (hcbw ▸ h)
  have hi (h : c.dtl ≠ 0#32) (hf : c.flags.getLsbD 7 = true) : hostClass u.bot.cbw = .hi :=
    hostClass_hi (hcbw ▸ h) (hcbw ▸ hf)
  have ho (h : c.dtl ≠ 0#32) (hf : c.flags.getLsbD 7 = false) : hostClass u.bot.cbw = .ho :=
    hostClass_ho (hcbw ▸ h) (hcbw ▸ hf)
  rw [hexec]
  refine ⟨hcbw, hcsw, hmore, fun hcode => ?_, fun hcode => ?_, fun hcode => ?_, botClassify_other u⟩
  · obtain ⟨cn, ci, co⟩ := botClassify_completed u hcode
    refine ⟨fun h => ?_, fun h hf => ?_, fun h hf => ?_⟩
    · rw [cn (hn h)]
      exact enterAwaitCsw_queued u.completed (completed_bulkInReady u hready)
    · rw [ci (hi h hf), botStall_eq]
      rfl
    · rw [co (ho h hf), enterDiscard, armOut_outArmed]
      rfl
  · obtain ⟨cn, ci, co⟩ := botClassify_sending u hcode
    refine ⟨fun h => ?_, fun h hf => ?_, fun h hf => ?_⟩
    · rw [cn (hn h)]
      exact phaseErrorNow_queued u hready
    · rw [ci (hi h hf)]
      exact sendFragment_queued _ hready
    · rw [co (ho h hf), phaseErrorStall_eq]
      rfl
  · obtain ⟨cn, ci, co⟩ := botClassify_wanting u hcode
    refine ⟨fun h => ?_, fun h hf => ?_, fun h hf => ?_⟩
    · rw [cn (hn h)]
      exact phaseErrorNow_queued u hready
    · rw [ci (hi h hf), phaseErrorStall_eq]
      rfl
    · rw [co (ho h hf), armOut_outArmed]

/-- The state the sequencer classifies after a TEST UNIT READY (rules R233, R291). -/
def State.unitTested (s : State) (c : Cbw) (l : Lun) : State :=
  { s with
    bot := { s.bot with
      cbw := c, csw := ⟨c.tag, c.dtl, 0#8⟩, dataOffset := 0#32, dataLen := 0#32, moreData := false },
    scsi := { s.scsi with
      inLen := 0#32, code := if l.state = .ready then 0 else -3,
      sense := if l.state = .ready then s.scsi.sense else ⟨0x70#8, 0x2#4, 0x3A#8, 0x00#8, 0#32, 0#32, 10#8⟩ } }

/-- A CBW of TEST UNIT READY runs it on the LUN it names (rules R281, R291). -/
theorem scsiCall_testUnitReady (c : Cbw) (rest : List Byte) (l : Lun) (s : State)
    (hlun : s.scsi.lun[c.lun.toNat]? = some l) (hcb : c.cb = 0x00#8 :: rest) :
    scsiCall 0#32 (acceptCbw c s) = .next (s.unitTested c l) := by
  have hroute : scsiCommand c.cb 0#32 (acceptCbw c s)
      = execTestUnitReady { acceptCbw c s with scsi := { s.scsi with inLen := 0#32 } } := by
    rw [hcb]
    rfl
  have hcur : State.curLun { acceptCbw c s with scsi := { s.scsi with inLen := 0#32 } } = some l := hlun
  rw [scsiCall, acceptCbw_bot, hroute, execTestUnitReady_of_curLun _ l hcur, State.unitTested]
  split
  · rfl
  · rfl

/-- Settles O45: the thirteen cases with code 0 on a ready LUN and -3 on another. -/
theorem cbwTestUnitReady : Obligations.CbwTestUnitReady := by
  intro c rest l s h1 h16 hlun hcb hpad hready v
  obtain ⟨hlt, -⟩ := List.getElem?_eq_some_iff.1 hlun
  have hcall := scsiCall_testUnitReady c rest l s hlun hcb
  have hcode : (s.unitTested c l).scsi.code = 0 ∨ (s.unitTested c l).scsi.code = -1
      ∨ (s.unitTested c l).scsi.code = -3 := by
    by_cases hl : l.state = .ready
    · exact .inl (if_pos hl)
    · exact .inr (.inr (if_neg hl))
  have hv : (s.unitTested c l).completed = v := by
    by_cases hl : l.state = .ready
    · simp [State.completed, State.unitTested, v, hl]
    · simp [State.completed, State.unitTested, v, hl, State.setStatus]
  obtain ⟨-, -, -, hcases, -⟩ := cbwThirteenCases c s _ h1 h16 hlt hpad hcall hready
  obtain ⟨hn, hi, ho⟩ := hcases hcode
  change (c.dtl = 0#32 → ∃ t, _ ∧ CswQueued (s.unitTested c l).completed t) at hn
  rw [hv] at hn
  refine ⟨hn, fun h hf => ?_, fun h hf => ?_⟩
  · rw [← hv]
    exact hi h hf
  · have hrun := ho h hf
    change exec (.cbw c) s = .next (State.outArmed { (s.unitTested c l).completed with
      bot := { (s.unitTested c l).completed.bot with dataLen := 0#32, dataOffset := 0#32, phase := .dataOut } }) at hrun
    rw [hv] at hrun
    exact hrun

/-! ## Payload -/

/-- Settles O46: the CBW's check and the phase decide before anything else. -/
theorem packetsRejected : Obligations.PacketsRejected := by
  refine ⟨fun c s hbad => ?_, fun p s => ⟨fun hphase => ?_, fun hcbw hout => ?_⟩⟩
  · refine if_neg fun hc => ?_
    obtain ⟨h1, h16, hlun, hpad⟩ := (meaningfulCbw_iff c s).1 hc
    rcases hbad with h | h | h | ⟨b, hb, hne⟩
    · omega
    · omega
    · omega
    · exact hne (hpad b hb)
  · change execBulkOutDefault p s = _
    rw [execBulkOutDefault, hphase]
  · change execBulkOutDefault p s = _
    unfold execBulkOutDefault
    cases hphase : s.bot.phase with
    | awaitCbw => exact absurd hphase hcbw
    | dataOut => exact absurd hphase hout
    | dataIn => rfl
    | awaitCsw => rfl
    | error => rfl
    | recovery => rfl

/-- A payload packet with a chunk wanted (rule R243). -/
theorem execBulkOutDefault_payload (p : List Byte) (s : State) (hphase : s.bot.phase = .dataOut)
    (hlen : s.bot.dataLen ≠ 0#32) : exec (.bulkOutDefault p) s = payloadPacket p s := by
  change execBulkOutDefault p s = payloadPacket p s
  rw [execBulkOutDefault, hphase]
  exact if_neg hlen

/-- `s` with a payload packet stored at `data_offset` and counted (rule R243). -/
def State.stored (s : State) (p : List Byte) : State :=
  State.moved { s with bot := { s.bot with dataBuf := Mem.write s.bot.dataBuf s.bot.dataOffset.toNat p } } p.length

/-- A packet within the chunk and the host's length is stored; then the chunk is complete, the host has no more to
send, or more is awaited (rule R243). -/
theorem payloadPacket_inBounds (p : List Byte) (s : State) (hne : p.length ≠ 0)
    (hfits : p.length ≤ (s.bot.dataLen - s.bot.dataOffset).toNat) (hres : p.length ≤ s.bot.csw.residue.toNat) :
    payloadPacket p s =
      if (s.stored p).bot.dataOffset = (s.stored p).bot.dataLen then
        andThen (scsiCall (s.stored p).bot.dataLen (s.stored p)) afterChunk
      else if (s.stored p).bot.csw.residue = 0#32 then phaseErrorNow (s.stored p)
      else .next (armOut (s.stored p)) :=
  if_neg (not_or.2 ⟨hne, not_or.2 ⟨Nat.not_lt.2 hfits, Nat.not_lt.2 hres⟩⟩)

/-- A chunk taken while more is wanted: case 13, or the next chunk (rule R243). -/
theorem afterChunk_wanting (s : State) (h : s.scsi.code = 3 ∨ s.scsi.code = 4) :
    afterChunk s = if s.bot.csw.residue = 0#32 then phaseErrorNow s
      else .next (armOut { s with bot := { s.bot with dataOffset := 0#32 } }) := if_pos h

/-- The last chunk taken: case 12, or 11 (rule R243). -/
theorem afterChunk_done (s : State) (h : s.scsi.code = 0) :
    afterChunk s = if s.bot.csw.residue = 0#32 then enterAwaitCsw s else .next (botStall .dOut s) := by
  refine (if_neg ?_).trans (if_pos h)
  omega

/-- A write error (rule R243). -/
theorem afterChunk_failed (s : State) (h : s.scsi.code = -1 ∨ s.scsi.code = -3) :
    afterChunk s = if s.bot.csw.residue = 0#32 then enterAwaitCsw (s.setStatus 1#8)
      else .next (botStall .dOut (s.setStatus 1#8)) := by
  refine (if_neg ?_).trans ((if_neg ?_).trans (if_pos h))
  · omega
  · omega

/-- Every other code stops (rules R243, R282; log 36). -/
theorem afterChunk_other (s : State)
    (h : s.scsi.code = 1 ∨ s.scsi.code = 2 ∨ s.scsi.code = -2 ∨ s.scsi.code < -3 ∨ 4 < s.scsi.code) :
    afterChunk s = .fault .scsiReturnCodeOutOfRange := by
  refine (if_neg ?_).trans ((if_neg ?_).trans (if_neg ?_))
  · omega
  · omega
  · omega

/-- Settles O48: the packet's bounds, then whether it completes the chunk, then the code of the write command. -/
theorem payloadPackets : Obligations.PayloadPackets := by
  intro p s hphase hlen off i
  have hexec : exec i s = payloadPacket p s := execBulkOutDefault_payload p s hphase hlen
  rw [hexec]
  refine ⟨fun hbad => if_pos hbad, fun hne hfits hres => ?_⟩
  rw [payloadPacket_inBounds p s hne hfits hres]
  refine ⟨Mem.write s.bot.dataBuf off p, Mem.readRange_write _ _ _, fun a ha => Mem.read_write_other _ _ _ _ ha, ?_⟩
  refine ⟨fun hpart hmore => ?_, fun hpart hnone hready => ?_, fun hwhole v hcall hready => ?_⟩
  · rw [← armOut_outArmed]
    exact (if_neg hpart).trans (if_neg hmore)
  · obtain ⟨t, herror, hqueued⟩ := phaseErrorNow_queued (s.stored p) hready
    exact ⟨t, ((if_neg hpart).trans (if_pos hnone)).trans herror, hqueued⟩
  · have hlast : (s.stored p).bot.dataOffset = (s.stored p).bot.dataLen := hwhole
    have hcall' : scsiCall (s.stored p).bot.dataLen (s.stored p) = .next v := hcall
    rw [if_pos hlast, hcall', andThen_next]
    refine ⟨fun hcode => ?_, fun hcode => ?_, fun hcode => ?_, afterChunk_other v⟩
    · rw [afterChunk_wanting v hcode]
      refine ⟨fun hnone => ?_, fun hmore => ⟨?_, ?_⟩⟩
      · rw [if_pos hnone]
        exact phaseErrorNow_queued v hready
      · rw [scsiCall_bot hcall]
        refine (moreDataOf_eq v.scsi.code).trans (decide_eq_decide.2 ?_)
        omega
      · rw [if_neg hmore, armOut_outArmed]
    · rw [afterChunk_done v hcode]
      refine ⟨fun hnone => ?_, fun hmore => ?_⟩
      · rw [if_pos hnone]
        exact enterAwaitCsw_queued v hready
      · rw [if_neg hmore, botStall_eq]
    · rw [afterChunk_failed v hcode]
      refine ⟨fun hnone => ?_, fun hmore => ?_⟩
      · rw [if_pos hnone]
        exact enterAwaitCsw_queued (v.setStatus 1#8) hready
      · rw [if_neg hmore, botStall_eq]
        rfl

/-! ## Data-in -/

/-- `tx_flag` in DATA_IN: the fragment counts as moved, and the transfer goes on (rule R240). -/
theorem botOnTx_dataIn (s : State) (h : s.bot.phase = .dataIn) :
    botOnTx s = continueDataIn (s.moved (s.half 1 .dIn).count) := by
  rw [botOnTx, h]
  rfl

/-- The host has had its length: case 7 or 6 (rule R241). -/
theorem continueDataIn_full (s : State) (h : s.bot.csw.residue = 0#32) :
    continueDataIn s =
      if s.bot.dataOffset.toNat < s.bot.dataLen.toNat ∨ s.bot.moreData = true then phaseErrorNow s
      else enterAwaitCsw s := if_pos h

/-- The chunk has more bytes (rule R241). -/
theorem continueDataIn_left (s : State) (h : s.bot.csw.residue ≠ 0#32)
    (hleft : s.bot.dataOffset.toNat < s.bot.dataLen.toNat) : continueDataIn s = sendFragment s :=
  (if_neg h).trans (if_pos hleft)

/-- The chunk is sent: the next block is asked for, or case 5 (rule R241). -/
theorem continueDataIn_chunkSent (s : State) (h : s.bot.csw.residue ≠ 0#32)
    (hleft : ¬ s.bot.dataOffset.toNat < s.bot.dataLen.toNat) :
    continueDataIn s =
      if s.bot.moreData = true then andThen (scsiCall 0#32 s) continueWithBlock else .next (botStall .dIn s) :=
  (if_neg h).trans (if_neg hleft)

/-- The next block is sent from its first byte on (rule R241). -/
theorem continueWithBlock_sending (s : State) (h : s.scsi.code = 1 ∨ s.scsi.code = 2) :
    continueWithBlock s = sendFragment { s with bot := { s.bot with dataOffset := 0#32 } } := if_pos h

/-- A read error (rule R241). -/
theorem continueWithBlock_failed (s : State) (h : s.scsi.code = -1 ∨ s.scsi.code = -3) :
    continueWithBlock s = .next (botStall .dIn (s.setStatus 1#8)) := by
  refine (if_neg ?_).trans (if_pos h)
  omega

/-- Every other code stops (rules R241, R282; log 36). -/
theorem continueWithBlock_other (s : State)
    (h : s.scsi.code = 0 ∨ s.scsi.code = -2 ∨ s.scsi.code < -3 ∨ 2 < s.scsi.code) :
    continueWithBlock s = .fault .scsiReturnCodeOutOfRange := by
  refine (if_neg ?_).trans (if_neg ?_)
  · omega
  · omega

/-- Settles O49: the residue, then what is left of the chunk, then `more_data`, then the code of the read command. -/
theorem dataInContinues : Obligations.DataInContinues := by
  intro s hphase hready n
  rw [botOnTx_dataIn s hphase]
  have hready' : (s.moved n).bulkInReady := hready
  refine ⟨fun hfull hmore => ?_, fun hfull hleft hmore => ?_, fun hres hleft => ?_, fun hres hleft hmore => ?_,
    fun hres hleft hmore v hcall hv => ?_⟩
  · obtain ⟨t, herror, hqueued⟩ := phaseErrorNow_queued (s.moved n) hready'
    exact ⟨t, ((continueDataIn_full _ hfull).trans (if_pos hmore)).trans herror, hqueued⟩
  · obtain ⟨t, hcsw, hqueued⟩ := enterAwaitCsw_queued (s.moved n) hready'
    exact ⟨t, ((continueDataIn_full _ hfull).trans (if_neg (not_or.2 ⟨hleft, Bool.eq_false_iff.1 hmore⟩))).trans hcsw,
      hqueued⟩
  · rw [continueDataIn_left (s.moved n) hres hleft]
    exact sendFragment_queued (s.moved n) hready'
  · rw [continueDataIn_chunkSent (s.moved n) hres hleft, botStall_eq]
    exact if_neg (Bool.eq_false_iff.1 hmore)
  · have hmore' : (s.moved n).bot.moreData = true := hmore
    have hcall' : scsiCall 0#32 (s.moved n) = .next v := hcall
    rw [continueDataIn_chunkSent (s.moved n) hres hleft, if_pos hmore', hcall', andThen_next]
    refine ⟨fun hcode => ⟨?_, ?_⟩, fun hcode => ?_, continueWithBlock_other v⟩
    · rw [scsiCall_bot hcall]
      refine (moreDataOf_eq v.scsi.code).trans (decide_eq_decide.2 ?_)
      omega
    · rw [continueWithBlock_sending v hcode]
      exact sendFragment_queued _ hv
    · rw [continueWithBlock_failed v hcode, botStall_eq]
      rfl

/-! ## The status phase -/

/-- Settles O50: the phase alone decides. -/
theorem cswTaken : Obligations.CswTaken := by
  intro s
  refine ⟨fun hphase => ?_, fun hcsw hin => ?_⟩
  · rw [botOnTx, hphase, ← armOut_outArmed]
    rfl
  · unfold botOnTx
    cases hphase : s.bot.phase with
    | awaitCbw => rfl
    | dataIn => exact absurd hphase hin
    | dataOut => rfl
    | awaitCsw => exact absurd hphase hcsw
    | error => rfl
    | recovery => rfl

/-! ## The Tick that serves a bulk-OUT packet -/

/-- What waits in slot 2's buffer is fetched as the phase reads it (rules R113, R233; log 27). -/
theorem fetchBulk_eq (s : State) (i : Instr)
    (h : if s.bot.phase = .awaitCbw then decodeAs .bulkOut (s.rxBuf 2) = .ok i else i = .bulkOutDefault (s.rxBuf 2)) :
    fetchBulk s = i := by
  unfold fetchBulk
  split_ifs at h ⊢ with hphase
  · by_cases hlen : (s.rxBuf 2).length ≤ 64
    · exact Except.ok.inj ((decodeAs_bulkOut _ hlen).symm.trans h)
    · simp [decodeAs, hlen] at h
  · exact h.symm

/-- Settles O8: with the two earlier flags clear the Tick starts at `rx_flag`, on the packet that waits. -/
theorem stepRunsBulkPacket : Obligations.StepRunsBulkPacket := by
  intro s es k i hin hdrv hrst herr hrx hfetch
  have hstep : step s = onEvent .tick { s with inputs := es } := by rw [step, hin]
  obtain ⟨-, -, hserve⟩ := tickServesFlagsInOrder { s with inputs := es } k hdrv
  have hfetch' : botOnRx (State.clearRxFlag { s with inputs := es })
      = exec i (State.clearRxFlag { s with inputs := es }) := by
    rw [botOnRx, fetchBulk_eq (State.clearRxFlag { s with inputs := es }) i hfetch]
  refine hstep.trans ((hserve hrst herr).trans ((if_pos hrx).trans ?_))
  exact congrArg (andThen · _) hfetch'

end Sys2Proof.Machine
end

section
/-! PROOFS. What the main loop leaves alone (rules R162, R233 to R250, R280): a frame that every operation of the
sequencer keeps, and that composes. -/

namespace Sys2Proof.Machine

/-! ## Outcomes -/

/-- An outcome whose next state has `P` and whose fault has `F`. -/
def Ensures (P : State → Prop) (F : Fault → Prop) (o : Res) : Prop :=
  (∀ t, o = .next t → P t) ∧ ∀ f, o = .fault f → F f

section
variable {P Q : State → Prop} {F : Fault → Prop}

theorem ensures_next {t : State} (h : P t) : Ensures P F (.next t) := by
  constructor
  · intro u hu
    cases hu
    exact h
  · intro f hf
    cases hf

theorem ensures_fault {r : Fault} (h : F r) : Ensures P F (.fault r) := by
  constructor
  · intro u hu
    cases hu
  · intro f hf
    cases hf
    exact h

/-- A sequence ensures what its second part ensures wherever the first can end. -/
theorem ensures_andThen {o : Res} {f : State → Res} (ho : Ensures Q F o) (hf : ∀ u, Q u → Ensures P F (f u)) :
    Ensures P F (andThen o f) := by
  cases o with
  | next u => exact hf u (ho.1 u rfl)
  | fault r => exact ensures_fault (ho.2 r rfl)
  | refused r =>
    constructor
    · intro u hu
      cases hu
    · intro f hf
      cases hf

theorem Ensures.imp {o : Res} (ho : Ensures Q F o) (h : ∀ t, Q t → P t) : Ensures P F o :=
  ⟨fun t ht => h t (ho.1 t ht), ho.2⟩

theorem ensures_ite {c : Prop} [Decidable c] {o o' : Res} (h : c → Ensures P F o) (h' : ¬ c → Ensures P F o') :
    Ensures P F (if c then o else o') := by
  by_cases hc : c
  · rw [if_pos hc]
    exact h hc
  · rw [if_neg hc]
    exact h' hc

/-- A property that every callback keeps is kept by calling all of them. -/
theorem ensures_forDrivers {f : Driver → State → Res} (hf : ∀ d s, P s → Ensures P F (f d s))
    (ds : List (Option Driver)) : ∀ s, P s → Ensures P F (forDrivers f ds s) := by
  induction ds with
  | nil => exact fun s hs => ensures_next hs
  | cons o ds ih =>
    intro s hs
    cases o with
    | none => exact ih s hs
    | some d => exact ensures_andThen (hf d s hs) ih

end

/-- Nothing is said of the fault. -/
def anyFault : Fault → Prop := fun _ => True

/-! ## The frame -/

/-- What the main loop leaves alone from `s` to `t`: every slot but 1 and 2, their unused halves, types, callbacks and
toggles of half 2, packet memory outside bulk-IN's buffer and its canonical form, the LUN table, the rest of the device
layer, the parameters and the events to come. -/
structure BulkFrame (s t : State) : Prop where
  usb       : t.usb = { s.usb with ep := t.usb.ep }
  cfg       : t.cfg = s.cfg
  inputs    : t.inputs = s.inputs
  lun       : t.scsi.lun = s.scsi.lun
  others    : ∀ n, n ≠ 1 → n ≠ 2 → t.ep n = s.ep n
  slotIn    : t.ep 1 = { s.ep 1 with tx := (t.ep 1).tx }
  slotOut   : t.ep 2 = { s.ep 2 with rx := (t.ep 2).rx }
  toggleIn  : (t.half 1 .dIn).toggle = (s.half 1 .dIn).toggle
  toggleOut : (t.half 2 .dOut).toggle = (s.half 2 .dOut).toggle
  countOut  : (t.half 2 .dOut).count = (s.half 2 .dOut).count
  countIn   : (s.half 1 .dIn).count ≤ 64 → (t.half 1 .dIn).count ≤ 64
  pma       : ∀ a, ¬ (0x180 ≤ a ∧ a < 0x1C0) → Mem.read t.pma a = Mem.read s.pma a
  pmaWf     : Mem.wf s.pma = true → Mem.wf t.pma = true
  cells     : ∀ c ∈ t.pma, c ∈ s.pma ∨ (0x180 ≤ c.1 ∧ c.1 < 0x1C0)
  calls     : s.medium.Grown t.medium

theorem BulkFrame.trans {s t u : State} (h : BulkFrame s t) (g : BulkFrame t u) : BulkFrame s u where
  usb := by rw [g.usb, h.usb]
  cfg := g.cfg.trans h.cfg
  inputs := g.inputs.trans h.inputs
  lun := g.lun.trans h.lun
  others n h1 h2 := (g.others n h1 h2).trans (h.others n h1 h2)
  slotIn := by rw [g.slotIn, h.slotIn]
  slotOut := by rw [g.slotOut, h.slotOut]
  toggleIn := g.toggleIn.trans h.toggleIn
  toggleOut := g.toggleOut.trans h.toggleOut
  countOut := g.countOut.trans h.countOut
  countIn hc := g.countIn (h.countIn hc)
  pma a ha := (g.pma a ha).trans (h.pma a ha)
  pmaWf hwf := g.pmaWf (h.pmaWf hwf)
  cells c hc := (g.cells c hc).elim (h.cells c) .inr
  calls := h.calls.trans g.calls

/-- What keeps the device layer and packet memory keeps the frame, whatever it does to the session. -/
theorem BulkFrame.of_session {s t : State} (husb : t.usb = s.usb) (hpma : t.pma = s.pma) (hcfg : t.cfg = s.cfg)
    (hinputs : t.inputs = s.inputs) (hlun : t.scsi.lun = s.scsi.lun) (hcalls : s.medium.Grown t.medium) :
    BulkFrame s t := by
  have hep (n : Fin 8) : t.ep n = s.ep n := by rw [State.ep, husb, State.ep]
  have hhalf (n : Fin 8) (d : Dir) : t.half n d = s.half n d := by rw [State.half, hep, State.half]
  exact
    { usb := by rw [husb]
      cfg := hcfg
      inputs := hinputs
      lun := hlun
      others := fun n _ _ => hep n
      slotIn := by rw [hep]
      slotOut := by rw [hep]
      toggleIn := by rw [hhalf]
      toggleOut := by rw [hhalf]
      countOut := by rw [hhalf]
      countIn := fun hc => by rwa [hhalf]
      pma := fun _ _ => by rw [hpma]
      pmaWf := fun hwf => by rwa [hpma]
      cells := fun _ hc => .inl (hpma ▸ hc)
      calls := hcalls }

theorem BulkFrame.refl (s : State) : BulkFrame s s := .of_session rfl rfl rfl rfl rfl (.refl _)

/-- Bulk-IN's TX half may change, but for its toggle. -/
theorem BulkFrame.setHalfIn (s : State) (h : Half) (ht : h.toggle = (s.half 1 .dIn).toggle)
    (hc : (s.half 1 .dIn).count ≤ 64 → h.count ≤ 64) : BulkFrame s (s.setHalf 1 .dIn h) where
  usb := rfl
  cfg := rfl
  inputs := rfl
  lun := rfl
  others n h1 _ := (State.ep_setHalf s 1 n .dIn h).trans (if_neg h1)
  slotIn := by
    rw [State.ep_setHalf, if_pos rfl]
    rfl
  slotOut := by
    rw [State.ep_setHalf, if_neg (by decide)]
  toggleIn := by rw [State.half_setHalf, if_pos ⟨rfl, rfl⟩, ht]
  toggleOut := by simp
  countOut := by simp
  countIn hold := by simpa using hc hold
  pma _ _ := rfl
  pmaWf := id
  cells _ := .inl
  calls := .refl _

/-- Bulk-OUT's RX half may change, but for its toggle and count. -/
theorem BulkFrame.setHalfOut (s : State) (v : HalfState) :
    BulkFrame s (s.setHalf 2 .dOut { s.half 2 .dOut with state := v }) where
  usb := rfl
  cfg := rfl
  inputs := rfl
  lun := rfl
  others n _ h2 := (State.ep_setHalf s 2 n .dOut _).trans (if_neg h2)
  slotIn := by
    rw [State.ep_setHalf, if_neg (by decide)]
  slotOut := by
    rw [State.ep_setHalf, if_pos rfl]
    rfl
  toggleIn := by simp
  toggleOut := by simp
  countOut := by simp
  countIn hold := by simpa using hold
  pma _ _ := rfl
  pmaWf := id
  cells _ := .inl
  calls := .refl _

/-- A packet queued on bulk-IN lies in bulk-IN's buffer (rules R64, R144). -/
theorem BulkFrame.sent (s : State) (bytes : List Byte) (hl : bytes.length ≤ 64) :
    BulkFrame s (s.sent 1 0x180 bytes) := by
  have hhalf := BulkFrame.setHalfIn s { s.half 1 .dIn with state := .valid, count := bytes.length } rfl fun _ => hl
  have hpad := padWord_le bytes hl
  exact
    { hhalf with
      pma := fun a ha => Mem.read_write_other _ _ _ _ (by omega)
      pmaWf := Mem.wf_write _ _ _
      cells := fun c hc => (Mem.mem_write _ _ _ c hc).imp_right fun h => by omega }

/-- The flags of the main loop and the pending reset (rules R40, R41). -/
def Bot.flags (b : Bot) : Bool × Bool × Bool × Bool × Bool :=
  (b.rxFlag, b.txFlag, b.errFlag, b.rstFlag, b.resetPending)

/-- The frame, with the flags kept. -/
structure BulkStep (s t : State) : Prop where
  frame : BulkFrame s t
  flags : t.bot.flags = s.bot.flags

theorem BulkStep.trans {s t u : State} (h : BulkStep s t) (g : BulkStep t u) : BulkStep s u :=
  ⟨h.frame.trans g.frame, g.flags.trans h.flags⟩

/-- A change of the session that keeps its flags. -/
theorem BulkStep.of_session {s t : State} (husb : t.usb = s.usb) (hpma : t.pma = s.pma) (hcfg : t.cfg = s.cfg)
    (hinputs : t.inputs = s.inputs) (hlun : t.scsi.lun = s.scsi.lun) (hcalls : s.medium.Grown t.medium)
    (hflags : t.bot.flags = s.bot.flags) : BulkStep s t :=
  ⟨.of_session husb hpma hcfg hinputs hlun hcalls, hflags⟩

/-- A change of `bot` alone that keeps its flags. -/
theorem BulkStep.of_bot (s : State) (b : Bot) (h : b.flags = s.bot.flags) : BulkStep s { s with bot := b } :=
  .of_session rfl rfl rfl rfl rfl (.refl _) h

theorem BulkStep.refl (s : State) : BulkStep s s := ⟨.refl s, rfl⟩

/-- An outcome that keeps the frame and the flags. -/
abbrev BulkSteps (s : State) (o : Res) : Prop := Ensures (BulkStep s) anyFault o

/-! ## The operations of the sequencer -/

theorem armOut_bulkStep (s : State) : BulkStep s (armOut s) := by
  rw [armOut_outArmed]
  exact ⟨.setHalfOut s _, rfl⟩

theorem botStall_bulkStep (d : Dir) (s : State) : BulkStep s (botStall d s) := by
  rw [botStall_eq]
  cases d with
  | dIn =>
    have hhalf := BulkFrame.setHalfIn s { s.half 1 .dIn with state := .stall } rfl id
    exact ⟨hhalf.trans (.of_session rfl rfl rfl rfl rfl (.refl _)), rfl⟩
  | dOut =>
    have hhalf := BulkFrame.setHalfOut s .stall
    exact ⟨hhalf.trans (.of_session rfl rfl rfl rfl rfl (.refl _)), rfl⟩

/-- A packet on bulk-IN (rule R144). -/
theorem send_bulkStep (bytes : List Byte) (s : State) : BulkSteps s (send 1 bytes s) := by
  refine ⟨fun t h => ?_, fun _ _ => trivial⟩
  obtain ⟨hl, -, off, hoff, -, rfl⟩ := (send_eq_next _ _ _ _).1 h
  obtain rfl : 0x180 = off := Option.some.inj hoff
  exact ⟨.sent s bytes hl, rfl⟩

theorem enterAwaitCsw_bulkStep (s : State) : BulkSteps s (enterAwaitCsw s) := by
  have hclear : BulkStep s (scsiComplete s) := .of_session rfl rfl rfl rfl rfl (.refl _) rfl
  refine ensures_andThen (send_bulkStep _ _) fun u hu => ensures_next ?_
  exact (hclear.trans hu).trans (.of_bot u { u.bot with phase := .awaitCsw } rfl)

theorem setStatus_bulkStep (s : State) (v : Byte) : BulkStep s (s.setStatus v) := .of_bot s _ rfl

theorem phaseErrorNow_bulkStep (s : State) : BulkSteps s (phaseErrorNow s) :=
  (enterAwaitCsw_bulkStep (s.setStatus 2#8)).imp fun _ => (setStatus_bulkStep s 2#8).trans

theorem phaseErrorStall_bulkStep (d : Dir) (s : State) : BulkSteps s (phaseErrorStall d s) :=
  ensures_next ((setStatus_bulkStep s 2#8).trans (botStall_bulkStep d _))

theorem scsiCall_bulkStep (n : Word32) (s : State) : BulkSteps s (scsiCall n s) := by
  refine ⟨fun t h => ?_, fun _ _ => trivial⟩
  obtain ⟨u, hu, rfl⟩ := scsiCall_eq_next h
  cases hu with
  | ended m ctx sense code hm hsense hcode => exact .of_session rfl rfl rfl rfl rfl hm rfl
  | delivered m ctx sense code bytes hm hsense hcode hbytes => exact .of_session rfl rfl rfl rfl rfl hm rfl

theorem completed_bulkStep (s : State) : BulkStep s s.completed := by
  unfold State.completed
  split
  · exact setStatus_bulkStep s 1#8
  · exact .refl s

theorem enterDiscard_bulkStep (s : State) : BulkStep s (enterDiscard s) :=
  (BulkStep.of_bot s { s.bot with dataLen := 0#32, dataOffset := 0#32, phase := .dataOut } rfl).trans
    (armOut_bulkStep _)

/-- An outcome that the host's direction decides (rule R95). -/
theorem ensures_byHost {P : State → Prop} {F : Fault → Prop} {c : Cbw} {o on oi oo : Res}
    (h : (hostClass c = .hn → o = on) ∧ (hostClass c = .hi → o = oi) ∧ (hostClass c = .ho → o = oo))
    (hn : hostClass c = .hn → Ensures P F on) (hi : hostClass c = .hi → Ensures P F oi)
    (ho : hostClass c = .ho → Ensures P F oo) : Ensures P F o := by
  obtain ⟨en, ei, eo⟩ := h
  cases hc : hostClass c with
  | hn => exact en hc ▸ hn hc
  | hi => exact ei hc ▸ hi hc
  | ho => exact eo hc ▸ ho hc

/-- Placing a command's outcome by its code and the host's direction (rules R234, R235). -/
theorem botClassify_bulkStep (s : State) : BulkSteps s (botClassify s) := by
  have hcompleted := completed_bulkStep s
  by_cases hdone : s.scsi.code = 0 ∨ s.scsi.code = -1 ∨ s.scsi.code = -3
  · refine ensures_byHost (botClassify_completed s hdone) (fun _ => ?_) (fun _ => ensures_next ?_)
      fun _ => ensures_next ?_
    · exact (enterAwaitCsw_bulkStep _).imp fun _ => hcompleted.trans
    · exact hcompleted.trans (botStall_bulkStep _ _)
    · exact hcompleted.trans (enterDiscard_bulkStep _)
  by_cases hsends : s.scsi.code = 1 ∨ s.scsi.code = 2
  · refine ensures_byHost (botClassify_sending s hsends) (fun _ => phaseErrorNow_bulkStep s) (fun _ => ?_)
      fun _ => phaseErrorStall_bulkStep _ s
    exact (send_bulkStep _ _).imp fun _ =>
      (BulkStep.of_bot s { s.bot with dataOffset := 0#32, phase := .dataIn } rfl).trans
  by_cases hwants : s.scsi.code = 3 ∨ s.scsi.code = 4
  · refine ensures_byHost (botClassify_wanting s hwants) (fun _ => phaseErrorNow_bulkStep s)
      (fun _ => phaseErrorStall_bulkStep _ s) fun _ => ensures_next ?_
    have hchunk : BulkStep s
        { s with bot := { s.bot with dataLen := 512#32, dataOffset := 0#32, phase := .dataOut } } :=
      .of_bot s _ rfl
    exact hchunk.trans (armOut_bulkStep _)
  · rw [botClassify_other s (by omega)]
    exact ensures_fault trivial

theorem execCbw_bulkStep (c : Cbw) (s : State) : BulkSteps s (execCbw c s) := by
  have haccept : BulkStep s (acceptCbw c s) := .of_bot s _ rfl
  refine ensures_ite (fun _ => ensures_andThen (scsiCall_bulkStep _ _) fun u hu => ?_) fun _ => ensures_fault trivial
  exact (botClassify_bulkStep u).imp fun _ => (haccept.trans hu).trans

theorem discardPacket_bulkStep (p : List Byte) (s : State) : BulkSteps s (discardPacket p s) := by
  have hcount : BulkStep s (s.discarded p.length) := .of_bot s _ rfl
  refine ensures_ite (fun _ => ensures_fault trivial) fun _ => ensures_ite (fun _ => ?_) fun _ => ensures_next ?_
  · exact (enterAwaitCsw_bulkStep _).imp fun _ => hcount.trans
  · exact hcount.trans (armOut_bulkStep _)

theorem afterChunk_bulkStep (s : State) : BulkSteps s (afterChunk s) := by
  have hfailed := setStatus_bulkStep s 1#8
  refine ensures_ite (fun _ => ?_) fun _ => ensures_ite (fun _ => ?_) fun _ => ensures_ite (fun _ => ?_) fun _ =>
    ensures_fault trivial
  · refine ensures_ite (fun _ => phaseErrorNow_bulkStep s) fun _ => ensures_next ?_
    exact (BulkStep.of_bot s { s.bot with dataOffset := 0#32 } rfl).trans (armOut_bulkStep _)
  · exact ensures_ite (fun _ => enterAwaitCsw_bulkStep s) fun _ => ensures_next (botStall_bulkStep _ s)
  · refine ensures_ite (fun _ => ?_) fun _ => ensures_next (hfailed.trans (botStall_bulkStep _ _))
    exact (enterAwaitCsw_bulkStep _).imp fun _ => hfailed.trans

theorem payloadPacket_bulkStep (p : List Byte) (s : State) : BulkSteps s (payloadPacket p s) := by
  have hstored : BulkStep s (s.stored p) := .of_bot s _ rfl
  refine ensures_ite (fun _ => ensures_fault trivial) fun _ => ensures_ite (fun _ => ?_) fun _ =>
    ensures_ite (fun _ => ?_) fun _ => ensures_next ?_
  · refine ensures_andThen (scsiCall_bulkStep _ _) fun u hu => ?_
    exact (afterChunk_bulkStep u).imp fun _ => (hstored.trans hu).trans
  · exact (phaseErrorNow_bulkStep _).imp fun _ => hstored.trans
  · exact hstored.trans (armOut_bulkStep _)

/-- The two rows of format BULK_OUT. -/
theorem exec_bulkOut_bulkStep (i : Instr) (s : State) (hi : i.format = .bulkOut) :
    BulkSteps s (exec i s) := by
  cases i with
  | cbw c => exact execCbw_bulkStep c s
  | bulkOutDefault p =>
    change Ensures _ _ (execBulkOutDefault p s)
    unfold execBulkOutDefault
    split
    · exact ensures_fault trivial
    · exact ensures_ite (fun _ => discardPacket_bulkStep p s) fun _ => payloadPacket_bulkStep p s
    all_goals exact ensures_fault trivial
  | _ => cases hi

/-- Settles O54: the frame with the flags, field by field. -/
theorem bulkPacketsFrame : Obligations.BulkPacketsFrame := by
  intro i s t hi h
  obtain ⟨hframe, hflags⟩ := (exec_bulkOut_bulkStep i s hi).1 t h
  simp only [Bot.flags, Prod.mk.injEq] at hflags
  obtain ⟨hrx, htx, herr, hrst, hpending⟩ := hflags
  exact ⟨hframe.usb, hframe.cfg, hframe.inputs, hframe.lun, hframe.others, hframe.slotIn, hframe.slotOut,
    hframe.toggleIn, hframe.toggleOut, hframe.countOut, hframe.pma, hrx, htx, herr, hrst, hpending, hframe.calls⟩


/-! ## The other flags of a Tick -/

/-- What is fetched is of format BULK_OUT (rule R113). -/
theorem fetchBulk_format (s : State) : (fetchBulk s).format = .bulkOut := by
  unfold fetchBulk decodeBulkOut
  split
  · split
    · rfl
    · rfl
  · rfl

/-- A released halt (rule R232). -/
theorem botOnErr_bulkStep (s : State) : BulkSteps s (botOnErr s) :=
  ensures_ite (fun _ => enterAwaitCsw_bulkStep s) fun _ =>
    ensures_ite (fun _ => send_bulkStep _ s) fun _ => ensures_next (.refl s)

theorem sendFragment_bulkStep (s : State) : BulkSteps s (sendFragment s) := send_bulkStep _ s

theorem continueWithBlock_bulkStep (s : State) : BulkSteps s (continueWithBlock s) := by
  refine ensures_ite (fun _ => ?_) fun _ => ensures_ite (fun _ => ensures_next ?_) fun _ => ensures_fault trivial
  · exact (sendFragment_bulkStep _).imp fun _ =>
      (BulkStep.of_bot s { s.bot with dataOffset := 0#32 } rfl).trans
  · exact (setStatus_bulkStep s 1#8).trans (botStall_bulkStep _ _)

theorem continueDataIn_bulkStep (s : State) : BulkSteps s (continueDataIn s) := by
  refine ensures_ite (fun _ => ?_) fun _ => ensures_ite (fun _ => sendFragment_bulkStep s) fun _ =>
    ensures_ite (fun _ => ?_) fun _ => ensures_next (botStall_bulkStep _ s)
  · exact ensures_ite (fun _ => phaseErrorNow_bulkStep s) fun _ => enterAwaitCsw_bulkStep s
  · exact ensures_andThen (scsiCall_bulkStep _ _) fun u hu =>
      (continueWithBlock_bulkStep u).imp fun _ => hu.trans

/-- A packet taken on bulk-IN (rules R240, R248, R249). -/
theorem botOnTx_bulkStep (s : State) : BulkSteps s (botOnTx s) := by
  unfold botOnTx
  split
  · exact (continueDataIn_bulkStep _).imp fun _ =>
      (BulkStep.of_bot s (s.moved (s.half 1 .dIn).count).bot rfl).trans
  · exact ensures_next ((BulkStep.of_bot s { s.bot with phase := .awaitCbw } rfl).trans (armOut_bulkStep _))
  all_goals exact ensures_fault trivial

/-- Reset recovery (rule R250). -/
theorem botRecover_frame (s : State) : BulkFrame s (botRecover s) := by
  rw [botRecover_eq]
  have hclear : BulkFrame s s.sessionCleared := .of_session rfl rfl rfl rfl rfl (.refl _)
  have hdrop : BulkFrame s.sessionCleared s.sessionCleared.inDropped := .setHalfIn _ _ rfl id
  have harm : BulkFrame s.sessionCleared.inDropped s.sessionCleared.inDropped.outArmed := .setHalfOut _ _
  exact ((hclear.trans hdrop).trans harm).trans (.of_session rfl rfl rfl rfl rfl (.refl _))

/-- Serving a flag keeps a frame that clearing it and the action keep. -/
theorem serve_frame {clear : State → State} {action : State → Res} (hclear : ∀ s, BulkFrame s (clear s))
    (haction : ∀ s, Ensures (BulkFrame s) anyFault (action s)) (flag : Bool) (s : State) :
    Ensures (BulkFrame s) anyFault (serve flag clear action s) :=
  ensures_ite (fun _ => (haction _).imp fun _ => (hclear s).trans) fun _ => ensures_next (.refl s)

/-- The main loop's turn (rules R162, R231). -/
theorem mscPeriodic_frame (s : State) : Ensures (BulkFrame s) anyFault (mscPeriodic s) := by
  have hflag (u v : State) (h : v = { u with bot := v.bot }) : BulkFrame u v := by
    rw [h]
    exact .of_session rfl rfl rfl rfl rfl (.refl _)
  have hrst (u : State) := serve_frame (clear := State.clearRstFlag) (action := fun s => .next (botRecover s))
    (fun s => hflag s _ rfl) (fun s => ensures_next (botRecover_frame s)) u.bot.rstFlag u
  have herr (u : State) := serve_frame (clear := State.clearErrFlag) (fun s => hflag s _ rfl)
    (fun s => (botOnErr_bulkStep s).imp fun _ => BulkStep.frame) u.bot.errFlag u
  have hrx (u : State) := serve_frame (clear := State.clearRxFlag) (fun s => hflag s _ rfl)
    (fun s => (exec_bulkOut_bulkStep (fetchBulk s) s (fetchBulk_format s)).imp fun _ => BulkStep.frame) u.bot.rxFlag u
  have htx (u : State) := serve_frame (clear := State.clearTxFlag) (fun s => hflag s _ rfl)
    (fun s => (botOnTx_bulkStep s).imp fun _ => BulkStep.frame) u.bot.txFlag u
  refine ensures_andThen (hrst s) fun t ht => ensures_andThen ((herr t).imp fun _ => ht.trans) fun u hu => ?_
  exact ensures_andThen ((hrx u).imp fun _ => hu.trans) fun v hv => (htx v).imp fun _ => hv.trans

theorem onTick_frame (s : State) : Ensures (BulkFrame s) anyFault (onTick s) := by
  refine ensures_forDrivers (fun d u hu => ?_) _ s (.refl s)
  exact ensures_ite (fun _ => (mscPeriodic_frame u).imp fun _ => hu.trans) fun _ => ensures_next hu

end Sys2Proof.Machine
end

section
/-! PROOFS. What a SETUP packet can do (rules R148 to R158): one effect before the answer, then a packet or a STALL on
EP0; and from it, that every SETUP is served and who writes the address and the configuration. -/

namespace Sys2Proof.Machine

/-! ## Effects and answers -/

/-- What a SETUP's instruction can do before it answers (rules R149, R185 to R196, R204). -/
inductive CtrlEffect (s : State) : State → Prop where
  | unchanged : CtrlEffect s s
  | released (n : Fin 8) (d : Dir) (h : (s.half n d).state ≠ .disabled) : CtrlEffect s (clearHalt n d s)
  | halted (n : Fin 8) (d : Dir) (h : (s.half n d).state ≠ .disabled) : CtrlEffect s (s.halted n d)
  | addressRecorded (a : BitVec 7) : CtrlEffect s { s with usb := { s.usb with pendingAddress := some a } }
  | configured (cfg : Byte) : CtrlEffect s (s.configSet cfg)
  | resetRequested : CtrlEffect s s.requestReset

/-- How a SETUP's instruction ends: with a STALL and nothing else, or with a packet, for valid parameters of at most
64 bytes (rules R150 to R152). -/
inductive CtrlAnswer (s : State) : Res → Prop where
  | stalled : CtrlAnswer s (.next s.ep0Stalled)
  | sent (u : State) (bytes : List Byte) (hu : CtrlEffect s u)
      (hlen : s.cfg.valid = true → bytes.length ≤ 64) : CtrlAnswer s (send 0 bytes u)

section
variable {s : State}

theorem ctrlAnswer_ite {c : Prop} [Decidable c] {o o' : Res} (h : CtrlAnswer s o) (h' : CtrlAnswer s o') :
    CtrlAnswer s (if c then o else o') := by
  split
  · exact h
  · exact h'

theorem ctrlAnswer_stall : CtrlAnswer s (.next (ep0Stall s)) := by
  rw [ep0Stall_eq]
  exact .stalled

theorem ctrlAnswer_reply (wLength : Word16) (bytes : List Byte) (hlen : s.cfg.valid = true → bytes.length ≤ 64) :
    CtrlAnswer s (ep0Reply wLength bytes s) :=
  .sent s _ .unchanged fun hvalid => (List.length_take_le' _ _).trans (hlen hvalid)

theorem ctrlAnswer_ack {u : State} (hu : CtrlEffect s u) : CtrlAnswer s (ep0Ack u) := .sent u [] hu fun _ => by simp

/-- A delegated request is answered by its driver, or stalled (rule R153). -/
theorem ctrlAnswer_delegate (a : SetupArgs) {f : State → Res} (hf : CtrlAnswer s (f s)) :
    CtrlAnswer s (delegate a f s) := by
  unfold delegate
  split
  · exact ctrlAnswer_stall
  · exact ctrlAnswer_ite hf ctrlAnswer_stall

end

/-! ## Every first-level request -/

theorem execGetStatus_answers (rcp : BitVec 5) (a : SetupArgs) (s : State) : CtrlAnswer s (execGetStatus rcp a s) := by
  have hzero : CtrlAnswer s (ep0Reply a.wLength [0x00#8, 0x00#8] s) := ctrlAnswer_reply _ _ fun _ => by simp
  refine ctrlAnswer_ite hzero (ctrlAnswer_ite hzero (ctrlAnswer_ite ?_ ctrlAnswer_stall))
  unfold execGetStatusEndpoint
  split
  · exact ctrlAnswer_stall
  · exact ctrlAnswer_reply _ _ fun _ => by simp

theorem execGetDescriptor_answers (rcp : BitVec 5) (a : SetupArgs) (s : State) :
    CtrlAnswer s (execGetDescriptor rcp a s) := by
  refine ctrlAnswer_ite (ctrlAnswer_reply _ _ fun _ => by decide) (ctrlAnswer_ite ?_ (ctrlAnswer_ite ?_
    (ctrlAnswer_ite (ctrlAnswer_reply _ _ fun _ => by decide) ctrlAnswer_stall)))
  · exact ctrlAnswer_reply _ _ fun _ => by simp [descConfig]
  · unfold execGetDescriptorString
    split
    · exact ctrlAnswer_stall
    · rename_i bytes hbytes
      exact ctrlAnswer_reply _ _ fun hvalid => descString_length _ _ bytes hvalid hbytes

theorem execGetInterface_answers (rcp : BitVec 5) (a : SetupArgs) (s : State) :
    CtrlAnswer s (execGetInterface rcp a s) := by
  unfold execGetInterface
  split
  · exact ctrlAnswer_stall
  · exact ctrlAnswer_reply _ _ fun _ => by simp

theorem execSetInterface_answers (rcp : BitVec 5) (a : SetupArgs) (s : State) :
    CtrlAnswer s (execSetInterface rcp a s) := by
  unfold execSetInterface
  split
  · exact ctrlAnswer_stall
  · exact ctrlAnswer_ite ctrlAnswer_stall (ctrlAnswer_ack .unchanged)

theorem execClearFeature_answers (rcp : BitVec 5) (a : SetupArgs) (s : State) :
    CtrlAnswer s (execClearFeature rcp a s) := by
  refine ctrlAnswer_ite (ctrlAnswer_ack .unchanged) (ctrlAnswer_ite ?_ ctrlAnswer_stall)
  refine ctrlAnswer_ite ctrlAnswer_stall ?_
  split
  · exact ctrlAnswer_stall
  · rename_i n d hhalf
    obtain ⟨-, -, henabled⟩ := (epHalf_eq_some a.wIndex s n d).1 hhalf
    exact ctrlAnswer_ack (.released n d henabled)

theorem execSetFeature_answers (rcp : BitVec 5) (a : SetupArgs) (s : State) :
    CtrlAnswer s (execSetFeature rcp a s) := by
  refine ctrlAnswer_ite (ctrlAnswer_ack .unchanged) (ctrlAnswer_ite ?_ ctrlAnswer_stall)
  by_cases hvalue : a.wValue = 0#16
  · cases hhalf : epHalf a.wIndex s with
    | none =>
      rw [execSetFeatureEndpoint_stalls a s (.inr hhalf)]
      exact .stalled
    | some half =>
      obtain ⟨n, d⟩ := half
      obtain ⟨-, -, henabled⟩ := (epHalf_eq_some a.wIndex s n d).1 hhalf
      rw [execSetFeatureEndpoint_of_half a s n d hvalue hhalf]
      exact ctrlAnswer_ack (.halted n d henabled)
  · rw [execSetFeatureEndpoint_stalls a s (.inl hvalue)]
    exact .stalled

/-- The MSC driver's `ctrl_req` (rule R229). -/
theorem mscCtrlReq_answers (bm rq : Byte) (a : SetupArgs) (s : State) : CtrlAnswer s (mscCtrlReq bm rq a s) := by
  refine ctrlAnswer_ite ?_ (ctrlAnswer_ite (ctrlAnswer_ack .resetRequested) ?_)
  · rw [execGetMaxLun_eq]
    exact ctrlAnswer_reply _ _ fun _ => by simp
  · rw [execMscDefault, finishCtrlReq_negative]
    exact .stalled

/-- Every first-level request ends in one of the two ways. -/
theorem exec_setup_answers (i : Instr) (s : State) (hi : i.format = .setup) : CtrlAnswer s (exec i s) := by
  cases i with
  | getStatus rcp a => exact execGetStatus_answers rcp a s
  | getDescriptor rcp a => exact execGetDescriptor_answers rcp a s
  | getConfiguration rcp a => exact ctrlAnswer_reply _ _ fun _ => by simp
  | getInterface rcp a => exact execGetInterface_answers rcp a s
  | clearFeature rcp a => exact execClearFeature_answers rcp a s
  | setFeature rcp a => exact execSetFeature_answers rcp a s
  | setAddress rcp a => exact ctrlAnswer_ack (.addressRecorded _)
  | setDescriptor rcp a => exact ctrlAnswer_stall
  | setConfiguration rcp a =>
    change CtrlAnswer s (execSetConfiguration rcp a s)
    rw [execSetConfiguration_eq]
    exact ctrlAnswer_ack (.configured _)
  | setInterface rcp a => exact execSetInterface_answers rcp a s
  | ctrlDelegateClass dir rq a => exact ctrlAnswer_delegate a (mscCtrlReq_answers _ rq a s)
  | ctrlDelegateVendor dir rq a => exact ctrlAnswer_delegate a (mscCtrlReq_answers _ rq a s)
  | ctrlDelegateReserved dir rq a => exact ctrlAnswer_delegate a (mscCtrlReq_answers _ rq a s)
  | setupDefault bm rq a => exact ctrlAnswer_stall
  | _ => cases hi

/-! ## What stays -/

/-- A change of configuration writes the device layer's values, the endpoint table and the session's reset request
alone (rules R196, R225). -/
theorem configSet_frame (cfg : Byte) (s : State) :
    s.configSet cfg = { s with
      usb := { s.usb with configValue := cfg, enumState := enumAfterConfig cfg s.usb.enumState,
                          ep := (s.configSet cfg).usb.ep },
      bot := (s.configSet cfg).bot } := by
  unfold State.configSet
  split
  · rw [bulkEnabled_frame]
    rfl
  · rfl

/-- No effect touches the parameters, the tables' sizes, the target, the address or the events to come; EP0 stays
idle. -/
theorem CtrlEffect.frame {s u : State} (h : CtrlEffect s u) :
    u.cfg = s.cfg ∧ u.usb.ifdrv = s.usb.ifdrv ∧ u.scsi = s.scsi ∧ u.usb.devAddress = s.usb.devAddress
      ∧ u.inputs = s.inputs := by
  cases h with
  | unchanged => exact ⟨rfl, rfl, rfl, rfl, rfl⟩
  | released n d h =>
    rw [clearHalt_eq]
    exact ⟨rfl, rfl, rfl, rfl, rfl⟩
  | halted n d h =>
    unfold State.halted
    split <;> exact ⟨rfl, rfl, rfl, rfl, rfl⟩
  | addressRecorded a => exact ⟨rfl, rfl, rfl, rfl, rfl⟩
  | configured cfg =>
    rw [configSet_frame]
    exact ⟨rfl, rfl, rfl, rfl, rfl⟩
  | resetRequested => exact ⟨rfl, rfl, rfl, rfl, rfl⟩

theorem CtrlEffect.ep0Ready {s u : State} (h : CtrlEffect s u) (hready : s.ep0Ready) : u.ep0Ready := by
  cases h with
  | unchanged => exact hready
  | released n d h => exact clearHalt_ep0Ready n d s hready
  | halted n d h => exact halted_ep0Ready n d s hready
  | addressRecorded a => exact hready
  | configured cfg => exact configSet_ep0Ready cfg s hready
  | resetRequested => exact hready

/-- A SETUP packet that is served: stored and latched, an effect, the answer on EP0, and the RX half armed (rules R148
to R155). -/
theorem onRxSetup_served (p : List Byte) (s : State) (hen : setupEnabled p s = true) :
    ∃ x o, decodeSetup p = some x ∧ CtrlAnswer (latchSetup x (receiveSetup p s)) o
      ∧ onRxSetup p s = andThen o fun s => .next (rearmEp0 s) := by
  have hlen : p.length = 8 := by
    simp only [setupEnabled, Bool.and_eq_true, beq_iff_eq] at hen
    exact hen.1.2
  obtain ⟨x, hx⟩ : ∃ x, decodeSetup p = some x :=
    Option.ne_none_iff_exists'.1 fun hnone => (decodeSetup_eq_none p).1 hnone hlen
  exact ⟨x, _, hx, exec_setup_answers _ _ (decodeFirst_format x), onRxSetup_eq p x s hen hx⟩

/-- Settles O57: EP0 is idle when the instruction runs, so it answers with a packet, if not with a STALL. -/
theorem everySetupServed : Obligations.EverySetupServed := by
  intro s p es hinv hin hen
  obtain ⟨x, o, -, hanswer, hrun⟩ := onRxSetup_served p { s with inputs := es } hen
  have hstep : step s = andThen o fun s => .next (rearmEp0 s) := by
    rw [step, hin]
    exact hrun
  obtain ⟨-, -, -, -, -, hpma⟩ := config_bounds s.cfg hinv.params.valid
  have hready : (latchSetup x (receiveSetup p { s with inputs := es })).ep0Ready := by
    refine ⟨?_, by change 0xC0 ≤ s.cfg.pmaSize; omega⟩
    exact congrArg Half.state (receiveSetup_half p { s with inputs := es }).1
  rw [hstep]
  cases hanswer with
  | stalled =>
    refine ⟨_, rfl, rfl, .inr ?_, ?_⟩
    · simp [rearmEp0_eq, State.ep0Stalled]
    · simp [rearmEp0_eq]
  | sent u bytes hu hlen =>
    obtain ⟨-, -, -, -, hinputs⟩ := hu.frame
    rw [send_ep0 bytes u (hu.ep0Ready hready) (hlen hinv.params.valid), andThen_next]
    refine ⟨_, rfl, hinputs, .inl ?_, ?_⟩
    · simp [rearmEp0_eq]
    · simp [rearmEp0_eq]

/-! ## Who writes the configuration and the address -/

/-- The parameters, the driver table's size, the LUN table and the device's address are as before. -/
structure ConfigKept (s t : State) : Prop where
  cfg     : t.cfg = s.cfg
  drivers : t.usb.ifdrv.length = s.usb.ifdrv.length
  lun     : t.scsi.lun = s.scsi.lun
  address : t.usb.devAddress = s.usb.devAddress

theorem ConfigKept.refl (s : State) : ConfigKept s s := ⟨rfl, rfl, rfl, rfl⟩

theorem ConfigKept.trans {s t u : State} (h : ConfigKept s t) (g : ConfigKept t u) : ConfigKept s u :=
  ⟨g.cfg.trans h.cfg, g.drivers.trans h.drivers, g.lun.trans h.lun, g.address.trans h.address⟩

/-- The main loop's turn keeps them (rule R162). -/
theorem BulkFrame.configKept {s t : State} (h : BulkFrame s t) : ConfigKept s t where
  cfg := h.cfg
  drivers := by rw [h.usb]
  lun := h.lun
  address := by rw [h.usb]

theorem CtrlAnswer.configKept {s t : State} {o : Res} (h : CtrlAnswer s o) (ho : o = .next t) : ConfigKept s t := by
  cases h with
  | stalled =>
    cases ho
    exact ⟨rfl, rfl, rfl, rfl⟩
  | sent u bytes hu hlen =>
    obtain ⟨-, -, off, -, -, rfl⟩ := (send_eq_next 0 bytes u t).1 ho
    obtain ⟨hcfg, hdrivers, hscsi, haddress, -⟩ := hu.frame
    exact ⟨hcfg, congrArg List.length hdrivers, congrArg Scsi.lun hscsi, haddress⟩

theorem onRxSetup_configKept {p : List Byte} {s t : State} (h : onRxSetup p s = .next t) : ConfigKept s t := by
  by_cases hen : setupEnabled p s = true
  · obtain ⟨x, o, -, hanswer, hrun⟩ := onRxSetup_served p s hen
    obtain ⟨u, hu, ht⟩ := (andThen_eq_next _ _ _).1 (hrun.symm.trans h)
    obtain rfl := Host.Outcome.next.inj ht
    have hkept := hanswer.configKept hu
    exact ⟨hkept.cfg, hkept.drivers, hkept.lun, hkept.address⟩
  · have hskip : onRxSetup p s = .next s := if_neg hen
    cases hskip.symm.trans h
    exact .refl s

theorem runCallback_frame (c : Option EpCallback) (s : State) :
    runCallback c s = { s with bot := (runCallback c s).bot } := by
  unfold runCallback
  split <;> rfl

theorem onRxOut_configKept {n : Fin 8} {p : List Byte} {s t : State} (h : onRxOut n p s = .next t) :
    ConfigKept s t := by
  by_cases hen : outEnabled n p s = true
  · by_cases hzero : n = 0
    · subst hzero
      cases (onRxOut_ep0 p s hen).symm.trans h
      split
      · exact ⟨rfl, rfl, rfl, rfl⟩
      · exact ⟨rfl, rfl, rfl, rfl⟩
    · simp only [onRxOut, if_pos hen, if_neg hzero] at h
      cases hoff : rxOffset n with
      | none => simp [hoff] at h
      | some off =>
        rw [hoff, receiveOut_eq n off p s hoff] at h
        cases h
        rw [runCallback_frame]
        exact ⟨rfl, rfl, rfl, rfl⟩
  · have hskip : onRxOut n p s = .next s := if_neg hen
    cases hskip.symm.trans h
    exact .refl s

/-- Taken packets: the address is committed on EP0 (rule R158), nothing else of this is written. -/
theorem onTxDone_configKept {n : Fin 8} {s t : State} (h : onTxDone n s = .next t) :
    t.cfg = s.cfg ∧ t.usb.ifdrv = s.usb.ifdrv ∧ t.scsi = s.scsi
      ∧ (t.usb.devAddress = s.usb.devAddress ∨ (n = 0 ∧ s.usb.pendingAddress = some t.usb.devAddress)) := by
  by_cases hen : doneEnabled n s = true
  · by_cases hzero : n = 0
    · subst hzero
      cases ((if_pos hen).trans (if_pos rfl)).symm.trans h
      have hpending : (sentIn 0 s).usb.pendingAddress = s.usb.pendingAddress := rfl
      cases ha : s.usb.pendingAddress with
      | none =>
        rw [commitAddress, hpending, ha]
        exact ⟨rfl, rfl, rfl, .inl rfl⟩
      | some a =>
        rw [commitAddress, hpending, ha]
        exact ⟨rfl, rfl, rfl, .inr ⟨rfl, rfl⟩⟩
    · cases ((if_pos hen).trans (if_neg hzero)).symm.trans h
      rw [runCallback_frame]
      exact ⟨rfl, rfl, rfl, .inl rfl⟩
  · have hskip : onTxDone n s = .next s := if_neg hen
    cases hskip.symm.trans h
    exact ⟨rfl, rfl, rfl, .inl rfl⟩

/-- A bus reset leaves the tables alone and clears the address (rule R147). -/
theorem onBusReset_configKept {s t : State} (h : onBusReset s = .next t) :
    t.cfg = s.cfg ∧ t.usb.ifdrv = s.usb.ifdrv ∧ t.scsi = s.scsi
      ∧ (t.usb.devAddress = s.usb.devAddress ∨ t.usb.devAddress = 0#7) := by
  by_cases hpull : s.usb.pullup = true
  · cases (onBusReset_started s hpull).symm.trans h
    split
    · rw [busResetDevice_frame]
      exact ⟨rfl, rfl, rfl, .inr rfl⟩
    · rw [busResetDevice_frame]
      exact ⟨rfl, rfl, rfl, .inr rfl⟩
  · have hskip : onBusReset s = .next s := if_neg hpull
    cases hskip.symm.trans h
    exact ⟨rfl, rfl, rfl, .inl rfl⟩

/-- `register_interface` fills an entry of the driver table (rule R145). -/
theorem registerInterface_configKept {i : Nat} {d : Driver} {s t : State} (h : registerInterface i d s = .next t) :
    ConfigKept s t := by
  unfold registerInterface at h
  split_ifs at h
  cases h
  exact ⟨rfl, List.length_set, rfl, rfl⟩

/-- What `start` leaves (rule R141). -/
theorem start_eq (s : State) : start s = .next (State.setEp { s with usb := { s.usb with
    devAddress := 0#7, pendingAddress := none, configValue := 0#8, enumState := .powered, pullup := true } }
    0 (configured .control (some .ep0Engine) (some .ep0Engine) none)) := rfl

/-- A medium's change writes a LUN's state alone (rule R47). -/
theorem onMediumChange_lun (l : Nat) (m : MediumState) (s : State) :
    onMediumChange l m s = { s with scsi := { s.scsi with lun := (onMediumChange l m s).scsi.lun } }
      ∧ (onMediumChange l m s).scsi.lun.map (fun r => { r with state := .ready })
        = s.scsi.lun.map (fun r => { r with state := .ready }) := by
  unfold onMediumChange
  split
  · refine ⟨rfl, ?_⟩
    refine List.ext_getElem (by simp) fun k hk hk' => ?_
    simp only [List.getElem_map, List.getElem_modify]
    split <;> rfl
  · exact ⟨rfl, rfl⟩

/-- Without an event the block boots or turns (rule R395; log 3): only `start` writes the address. -/
theorem onIdle_configKept {s t : State} (h : onIdle s = .next t) :
    t.cfg = s.cfg ∧ t.usb.ifdrv.length = s.usb.ifdrv.length ∧ t.scsi.lun = s.scsi.lun
      ∧ (t.usb.devAddress = s.usb.devAddress ∨ (t.usb.devAddress = 0#7 ∧ s.usb.pullup = false)) := by
  unfold onIdle at h
  split at h
  · obtain ⟨hcfg, hdrivers, hlun, haddress⟩ := ((onTick_frame s).1 t h).configKept
    exact ⟨hcfg, hdrivers, hlun, .inl haddress⟩
  · rename_i hpull
    split at h
    · obtain ⟨hcfg, hdrivers, hlun, haddress⟩ := registerInterface_configKept h
      exact ⟨hcfg, hdrivers, hlun, .inl haddress⟩
    · cases (start_eq s).symm.trans h
      exact ⟨rfl, rfl, rfl, .inr ⟨rfl, by simpa using hpull⟩⟩

theorem step_of_event {s : State} {e : Event} {es : List Event} (h : s.inputs = e :: es) :
    step s = onEvent e { s with inputs := es } := by
  rw [step, h]

theorem step_of_idle {s : State} (h : s.inputs = []) : step s = onIdle s := by
  rw [step, h]

/-- Settles O59: event by event; the address commit, the bus reset and `start` are the ones that write it. -/
theorem whoWritesTheAddress : Obligations.WhoWritesTheAddress := by
  intro s t h hne
  cases hin : s.inputs with
  | nil =>
    rw [step_of_idle hin] at h
    obtain ⟨-, -, -, haddress⟩ := onIdle_configKept h
    obtain ⟨hzero, hpull⟩ := haddress.resolve_left hne
    exact .inr (.inr (.inr ⟨hzero, rfl, hpull⟩))
  | cons e es =>
    rw [step_of_event hin] at h
    cases e with
    | rxSetup p => exact absurd (onRxSetup_configKept h).address hne
    | rxOut n p => exact absurd (onRxOut_configKept h).address hne
    | txDone n =>
      obtain ⟨-, -, -, haddress⟩ := onTxDone_configKept h
      obtain ⟨rfl, hcommit⟩ := haddress.resolve_left hne
      exact .inl ⟨es, rfl, hcommit⟩
    | busReset =>
      obtain ⟨-, -, -, haddress⟩ := onBusReset_configKept h
      exact .inr (.inl ⟨haddress.resolve_left hne, es, rfl⟩)
    | busError =>
      cases h
      exact absurd rfl hne
    | overrun =>
      cases h
      exact absurd rfl hne
    | tick => exact absurd ((onTick_frame _).1 t h).configKept.address hne
    | registerInterface i d => exact absurd (registerInterface_configKept h).address hne
    | start =>
      cases (start_eq _).symm.trans h
      exact .inr (.inr (.inl ⟨rfl, es, rfl⟩))
    | mediumChange l m =>
      cases h
      rw [(onMediumChange_lun l m _).1] at hne
      exact absurd rfl hne

/-- Where the LUN table stays, the statement's clauses on it hold. -/
theorem lunClauses_of_eq {s t : State} (h : t.scsi.lun = s.scsi.lun) :
    t.scsi.lun.map (fun l => { l with state := .ready }) = s.scsi.lun.map (fun l => { l with state := .ready })
      ∧ (t.scsi.lun ≠ s.scsi.lun → ∃ l m es, s.inputs = .mediumChange l m :: es) :=
  ⟨by rw [h], fun hne => absurd h hne⟩

/-- Settles O60: event by event; only a MediumChange writes the LUN table, and there the state alone. -/
theorem configurationIsNeverWritten : Obligations.ConfigurationIsNeverWritten := by
  intro s t h
  cases hin : s.inputs with
  | nil =>
    rw [step_of_idle hin] at h
    obtain ⟨hcfg, hdrivers, hlun, -⟩ := onIdle_configKept h
    exact ⟨hcfg, hdrivers, hin ▸ lunClauses_of_eq hlun⟩
  | cons e es =>
    rw [step_of_event hin] at h
    rw [← hin]
    cases e with
    | rxSetup p =>
      obtain ⟨hcfg, hdrivers, hlun, -⟩ := onRxSetup_configKept h
      exact ⟨hcfg, hdrivers, lunClauses_of_eq hlun⟩
    | rxOut n p =>
      obtain ⟨hcfg, hdrivers, hlun, -⟩ := onRxOut_configKept h
      exact ⟨hcfg, hdrivers, lunClauses_of_eq hlun⟩
    | txDone n =>
      obtain ⟨hcfg, hdrivers, hscsi, -⟩ := onTxDone_configKept h
      exact ⟨hcfg, congrArg List.length hdrivers, lunClauses_of_eq (congrArg Scsi.lun hscsi)⟩
    | busReset =>
      obtain ⟨hcfg, hdrivers, hscsi, -⟩ := onBusReset_configKept h
      exact ⟨hcfg, congrArg List.length hdrivers, lunClauses_of_eq (congrArg Scsi.lun hscsi)⟩
    | busError =>
      cases h
      exact ⟨rfl, rfl, lunClauses_of_eq rfl⟩
    | overrun =>
      cases h
      exact ⟨rfl, rfl, lunClauses_of_eq rfl⟩
    | tick =>
      obtain ⟨hcfg, hdrivers, hlun, -⟩ := ((onTick_frame _).1 t h).configKept
      exact ⟨hcfg, hdrivers, lunClauses_of_eq hlun⟩
    | registerInterface i d =>
      obtain ⟨hcfg, hdrivers, hlun, -⟩ := registerInterface_configKept h
      exact ⟨hcfg, hdrivers, lunClauses_of_eq hlun⟩
    | start =>
      cases (start_eq _).symm.trans h
      exact ⟨rfl, rfl, lunClauses_of_eq rfl⟩
    | mediumChange l m =>
      cases h
      obtain ⟨hframe, hmap⟩ := onMediumChange_lun l m { s with inputs := es }
      exact ⟨by rw [hframe], by rw [hframe], hmap, fun _ => ⟨l, m, es, hin⟩⟩

end Sys2Proof.Machine
end

section
/-! PROOFS. The session's invariant through the main loop (42_bot_sequencer.md, rules R221, R231 to R250, R271, R288):
what holds while the sequencer is at work, and each way it settles again. -/

namespace Sys2Proof.Machine

/-! ## At work and settled -/

/-- A fault that a state of the invariant may reach. -/
def Fault.expected (f : Fault) : Prop := f.unreachable = false

/-- The sequencer at work: what holds of the session in every phase, no reset asked for, no taken packet unserved,
nothing queued on bulk-IN. -/
structure Running (s : State) : Prop where
  valid   : s.cfg.valid = true
  bufWf   : Mem.wf s.bot.dataBuf = true
  bufSize : ∀ c ∈ s.bot.dataBuf, c.1 < 512
  block   : s.bot.cbw.cb.length = 16 ∧ s.bot.cbw.lun.toNat < s.scsi.lun.length
  tag     : s.bot.csw.tag = s.bot.cbw.tag
  status  : s.bot.csw.status.toNat ≤ 2
  residue : s.bot.csw.residue.toNat ≤ s.bot.cbw.dtl.toNat
  chunk   : s.bot.dataLen.toNat ≤ 512
  sense   : s.scsi.sense.Fixed
  pending : s.bot.resetPending = false
  rst     : s.bot.rstFlag = false
  tx      : s.bot.txFlag = false
  idle    : (s.half 1 .dIn).state ≠ .valid

/-- The session's invariant with what it rests on, outside RECOVERY. -/
structure Settled (s : State) : Prop where
  valid   : s.cfg.valid = true
  bufWf   : Mem.wf s.bot.dataBuf = true
  bufSize : ∀ c ∈ s.bot.dataBuf, c.1 < 512
  session : SessionInv s
  phase   : s.bot.phase ≠ .recovery

/-- An outcome that is settled, or a fault that may happen. -/
abbrev Settles (o : Res) : Prop := Ensures Settled Fault.expected o

/-- With nothing queued on bulk-IN and no taken packet unserved, the sequencer can go to work. -/
theorem Settled.running {s : State} (h : Settled s) (htx : s.bot.txFlag = false)
    (hidle : (s.half 1 .dIn).state ≠ .valid) : Running s where
  valid := h.valid
  bufWf := h.bufWf
  bufSize := h.bufSize
  block := h.session.block
  tag := h.session.tag
  status := h.session.status
  residue := h.session.residue
  chunk := h.session.chunk
  sense := h.session.sense
  pending := Bool.eq_false_iff.2 (mt h.session.pending.2 h.phase)
  rst := Bool.eq_false_iff.2 (mt h.session.recover.2 h.phase)
  tx := htx
  idle := hidle

/-- In the phases that send nothing the sequencer can go to work. -/
theorem Settled.running_of_phase {s : State} (h : Settled s)
    (hphase : s.bot.phase = .awaitCbw ∨ s.bot.phase = .dataOut ∨ s.bot.phase = .error) : Running s :=
  h.running (h.session.idleIn hphase).1 (h.session.idleIn hphase).2

/-- The way back into a phase that sends nothing. -/
theorem Running.settled {s : State} (h : Running s)
    (hphase : s.bot.phase = .awaitCbw ∨ s.bot.phase = .dataOut ∨ s.bot.phase = .error)
    (hout : s.bot.phase = .dataOut →
      (s.bot.dataLen = 0#32 ∧ s.bot.dataOffset.toNat < s.bot.cbw.dtl.toNat ∧ s.bot.csw.residue = s.bot.cbw.dtl)
        ∨ (s.bot.dataLen = 512#32 ∧ s.bot.dataOffset.toNat < 512))
    (hctx : s.bot.phase = .awaitCbw → s.scsi.ctx = 0#32) : Settled s := by
  have hrecovery : s.bot.phase ≠ .recovery := by rcases hphase with h | h | h <;> simp [h]
  have hin : s.bot.phase ≠ .dataIn := by rcases hphase with h | h | h <;> simp [h]
  have hcsw : s.bot.phase ≠ .awaitCsw := by rcases hphase with h | h | h <;> simp [h]
  exact
    { valid := h.valid
      bufWf := h.bufWf
      bufSize := h.bufSize
      phase := hrecovery
      session :=
        { pending := by simp [hrecovery, h.pending]
          recover := by simp [hrecovery, h.rst]
          block := h.block
          tag := h.tag
          status := h.status
          residue := h.residue
          chunk := h.chunk
          dataOut := hout
          dataIn := fun hp => absurd hp hin
          awaitCsw := fun hp => absurd hp hcsw
          idleIn := fun _ => ⟨h.tx, h.idle⟩
          oneIn := fun _ => h.tx
          ctx := fun hp => hctx (hp.resolve_right hcsw)
          sense := h.sense } }

/-- The way into a phase that sends: a packet is queued on bulk-IN. -/
theorem Running.sent_settled {s : State} (h : Running s) (bytes : List Byte)
    (hphase : s.bot.phase = .dataIn ∨ s.bot.phase = .awaitCsw)
    (hin : s.bot.phase = .dataIn → 1 ≤ bytes.length ∧ bytes.length ≤ s.bot.csw.residue.toNat
      ∧ s.bot.dataOffset.toNat + bytes.length ≤ s.bot.dataLen.toNat
      ∧ bytes = Mem.readRange s.bot.dataBuf s.bot.dataOffset.toNat bytes.length)
    (hcsw : s.bot.phase = .awaitCsw → bytes = encodeCsw s.bot.csw ∧ s.scsi.ctx = 0#32) :
    Settled (s.sent 1 0x180 bytes) := by
  have hrecovery : s.bot.phase ≠ .recovery := by rcases hphase with h | h <;> simp [h]
  have hsends : ¬ (s.bot.phase = .awaitCbw ∨ s.bot.phase = .dataOut ∨ s.bot.phase = .error) := by
    rcases hphase with h | h <;> simp [h]
  have hbuf : (s.sent 1 0x180 bytes).txBuf 1 = bytes := sent_txBuf s 1 0x180 bytes rfl
  have hcount : ((s.sent 1 0x180 bytes).half 1 .dIn).count = bytes.length := by simp
  exact
    { valid := h.valid
      bufWf := h.bufWf
      bufSize := h.bufSize
      phase := hrecovery
      session :=
        { pending := by simp [hrecovery, h.pending]
          recover := by simp [hrecovery, h.rst]
          block := h.block
          tag := h.tag
          status := h.status
          residue := h.residue
          chunk := h.chunk
          dataOut := fun hp => absurd (.inr (.inl hp)) hsends
          dataIn := fun hp => by
            rw [hcount, hbuf]
            exact hin hp
          awaitCsw := fun hp => hbuf.trans (hcsw hp).1
          idleIn := fun hp => absurd hp hsends
          oneIn := fun _ => h.tx
          ctx := fun hp => (hcsw (hp.resolve_left fun hc => hsends (.inl hc))).2
          sense := h.sense } }

/-! ## What keeps the sequencer at work -/

section
variable {s t : State} (h : Running s)
include h

/-- What keeps the session, the target and the parameters, and queues nothing. -/
theorem Running.congr (hbot : t.bot = s.bot) (hscsi : t.scsi = s.scsi) (hcfg : t.cfg = s.cfg)
    (hidle : (t.half 1 .dIn).state ≠ .valid) : Running t where
  valid := hcfg ▸ h.valid
  bufWf := hbot ▸ h.bufWf
  bufSize := hbot ▸ h.bufSize
  block := hbot ▸ hscsi ▸ h.block
  tag := hbot ▸ h.tag
  status := hbot ▸ h.status
  residue := hbot ▸ h.residue
  chunk := hbot ▸ h.chunk
  sense := hscsi ▸ h.sense
  pending := hbot ▸ h.pending
  rst := hbot ▸ h.rst
  tx := hbot ▸ h.tx
  idle := hidle

theorem Running.setPhase (p : Phase) : Running (s.setPhase p) := { h with idle := h.idle }

theorem Running.setStatus (v : Byte) (hv : v.toNat ≤ 2) : Running (s.setStatus v) := { h with status := hv }

theorem Running.scsiComplete : Running (scsiComplete s) := { h with idle := h.idle }

theorem Running.setOffset (off : Word32) : Running { s with bot := { s.bot with dataOffset := off } } :=
  { h with idle := h.idle }

theorem Running.setChunk (len off : Word32) (p : Phase) (hlen : len.toNat ≤ 512) :
    Running { s with bot := { s.bot with dataLen := len, dataOffset := off, phase := p } } :=
  { h with chunk := hlen }

theorem Running.armOut : Running (armOut s) := by
  rw [armOut_outArmed]
  refine h.congr rfl rfl rfl ?_
  simpa [State.outArmed] using h.idle

/-- Bytes moved within the residue (rules R37, R240, R243). -/
theorem Running.moved (n : Nat) (hn : n ≤ s.bot.csw.residue.toNat) : Running (s.moved n) := by
  refine { h with residue := ?_ }
  have hres := h.residue
  simp only [moved_bot]
  bv_omega

/-- A payload packet within the chunk and the residue (rule R243). -/
theorem Running.stored (p : List Byte) (hfits : s.bot.dataOffset.toNat + p.length ≤ 512)
    (hres : p.length ≤ s.bot.csw.residue.toNat) : Running (s.stored p) := by
  have hbuf : Running { s with bot := { s.bot with dataBuf := Mem.write s.bot.dataBuf s.bot.dataOffset.toNat p } } :=
    { h with
      bufWf := Mem.wf_write _ _ _ h.bufWf
      bufSize := fun c hc => (Mem.mem_write _ _ _ c hc).elim (h.bufSize c) fun hr => by omega }
  exact hbuf.moved p.length hres

/-- An accepted CBW (rule R233). -/
theorem Running.acceptCbw (c : Cbw) (hcb : c.cb.length = 16) (hlun : c.lun.toNat < s.scsi.lun.length) :
    Running (acceptCbw c s) :=
  { h with
    block := ⟨hcb, hlun⟩
    tag := rfl
    status := Nat.zero_le _
    residue := Nat.le_refl _
    chunk := Nat.zero_le _ }

theorem Running.completed : Running s.completed := by
  unfold State.completed
  split
  · exact h.setStatus 1#8 (by decide)
  · exact h

end

/-! ## A SCSI call -/

/-- The faults of a command block are all ones that may happen. -/
theorem exec_cdb_fault (i : Instr) (s : State) (hi : i.format = .cdb) :
    Ensures (fun _ => True) Fault.expected (exec i s) := by
  have hlun (f : Lun → Res) (hf : ∀ l, Ensures (fun _ => True) Fault.expected (f l)) :
      Ensures (fun _ => True) Fault.expected (withLun s f) := by
    unfold withLun
    split
    · exact ensures_fault rfl
    · exact hf _
  have hnext (t : State) : Ensures (fun _ => True) Fault.expected (.next t) := ensures_next trivial
  have hmedium (l : Lun) (lba : Word32) (n : Word16) (u : State) :
      Ensures (fun _ => True) Fault.expected (checkMediumAccess l lba n u) :=
    ensures_ite (fun _ => ensures_fault rfl) fun _ => ensures_ite (fun _ => ensures_fault rfl) fun _ => hnext _
  have hbuffer : Ensures (fun _ => True) Fault.expected
      (if s.cfg.hasBufferCmds then .fault .bufferCommandsNotSpecified else .next (unsupported s)) :=
    ensures_ite (fun _ => ensures_fault rfl) fun _ => hnext _
  cases i with
  | testUnitReady => exact hlun _ fun l => ensures_ite (fun _ => hnext _) fun _ => hnext _
  | requestSense => exact hnext _
  | inquiry reserved evpd page =>
    exact ensures_ite (fun _ => hnext _) fun _ => ensures_ite
      (fun _ => ensures_ite (fun _ => hnext _) fun _ => hnext _) fun _ => ensures_ite (fun _ => hnext _) fun _ =>
        ensures_ite (fun _ => hnext _) fun _ => ensures_ite (fun _ => hnext _) fun _ => hnext _
  | modeSense6 => exact hlun _ fun l => hnext _
  | startStopUnit => exact hnext _
  | preventAllowMediumRemoval => exact hnext _
  | readFormatCapacities => exact hlun _ fun l => hnext _
  | readCapacity10 => exact hlun _ fun l => hnext _
  | read10 lba n =>
    refine hlun _ fun l => ensures_ite (fun _ => hnext _) fun _ => ensures_andThen (Q := fun _ => True) ?_ fun u _ =>
      hnext _
    exact ensures_ite (fun _ => hmedium l lba n s) fun _ => hnext _
  | write10 lba n =>
    refine hlun _ fun l => ensures_ite (fun _ => ?_) fun _ => hnext _
    exact ensures_ite (fun _ => hnext _) fun _ => ensures_ite (fun _ => hnext _) fun _ =>
      ensures_andThen (hmedium l lba n s) fun u _ => hnext _
  | writeBuffer => exact hbuffer
  | readBuffer => exact hbuffer
  | vendor cb =>
    refine hlun _ fun l => ensures_ite (fun _ => hnext _) fun _ => ensures_ite (fun _ => ?_) fun _ => hnext _
    exact ensures_ite (fun _ => ensures_fault rfl) fun _ => hnext _
  | cdbDefault op => exact hnext _
  | _ => cases hi

/-- What a SCSI call leaves to the sequencer: the session but for the data buffer, `data_len` and `more_data`, the
halves, a chunk with codes 1 and 2, and `data_len` as it was with the others (rules R280, R289). -/
structure Called (s t : State) : Prop where
  running : Running t
  bot     : t.bot = { s.bot with
    dataBuf := t.bot.dataBuf, dataLen := t.bot.dataLen, moreData := moreDataOf t.scsi.code }
  chunk   : t.scsi.code = 1 ∨ t.scsi.code = 2 → 1 ≤ t.bot.dataLen.toNat
  kept    : t.scsi.code ≠ 1 ∧ t.scsi.code ≠ 2 → t.bot.dataLen = s.bot.dataLen

/-- A SCSI call keeps the sequencer at work (rules R39, R280, R289). -/
theorem Running.scsiCall {s : State} (h : Running s) (n : Word32) :
    Ensures (Called s) Fault.expected (scsiCall n s) := by
  constructor
  · intro t ht
    have hbot := scsiCall_bot ht
    obtain ⟨u, hu, rfl⟩ := scsiCall_eq_next ht
    cases hu with
    | ended m ctx sense code hm hsense hcode =>
      refine ⟨{ h with sense := hsense h.sense }, hbot, fun hc => ?_, fun _ => rfl⟩
      exact absurd hc (not_or.2 hcode)
    | delivered m ctx sense code bytes hm hsense hcode hbytes =>
      obtain ⟨h1, h512⟩ := hbytes h.valid
      have hlen : (BitVec.ofNat 32 bytes.length).toNat = bytes.length := by
        rw [BitVec.toNat_ofNat]
        omega
      refine ⟨{ h with
        sense := hsense h.sense
        bufWf := Mem.wf_write _ _ _ h.bufWf
        bufSize := fun c hc => (Mem.mem_write _ _ _ c hc).elim (h.bufSize c) fun hr => ?_
        chunk := ?_ }, hbot, fun _ => ?_, fun hc => ?_⟩
      · simp only [List.length_take] at hr
        omega
      · exact hlen.le.trans h512
      · exact h1.trans hlen.ge
      · exact absurd hcode (not_or.2 hc)
  · intro f hf
    rw [Machine.scsiCall, andThen_eq_fault] at hf
    rcases hf with hf | ⟨u, -, hu⟩
    · rw [scsiCommand, scsiRoute_eq] at hf
      exact (exec_cdb_fault _ _ (decodeCdb_format _)).2 f hf
    · cases hu

/-! ## The ways to settle -/

section
variable {s : State} (h : Running s)
include h

/-- A packet on bulk-IN never stops for its buffer or its length (rules R64, R144; log 20). -/
theorem Running.send_sent (bytes : List Byte) (hlen : bytes.length ≤ 64) :
    Ensures (fun t => t = s.sent 1 0x180 bytes) Fault.expected (send 1 bytes s) := by
  constructor
  · intro t ht
    obtain ⟨-, -, off, hoff, -, rfl⟩ := (send_eq_next 1 bytes s t).1 ht
    obtain rfl : 0x180 = off := Option.some.inj hoff
    rfl
  · intro f hf
    obtain ⟨-, -, -, -, -, hpma⟩ := config_bounds s.cfg h.valid
    have hpad := padWord_le bytes hlen
    rcases send_eq_fault 1 bytes s f hf with ⟨-, hlong⟩ | ⟨rfl, -⟩ | ⟨-, hnone⟩ | ⟨-, off, hoff, hend⟩
    · omega
    · rfl
    · cases hnone
    · obtain rfl : 0x180 = off := Option.some.inj hoff
      omega

/-- The CSW queued in AWAIT_CSW (rules R232, R247). -/
theorem Running.csw_settled (hphase : s.bot.phase = .awaitCsw) (hctx : s.scsi.ctx = 0#32) :
    Settled (s.sent 1 0x180 (encodeCsw s.bot.csw)) :=
  h.sent_settled _ (.inr hphase) (fun hp => by simp [hphase] at hp) fun _ => ⟨rfl, hctx⟩

/-- The end of a transaction: the CSW on bulk-IN, `ctx` cleared (rules R247, R286). -/
theorem Running.enterAwaitCsw_settles : Settles (enterAwaitCsw s) := by
  refine ensures_andThen (h.scsiComplete.send_sent (encodeCsw s.bot.csw) (by simp)) fun u hu => ensures_next ?_
  subst hu
  exact (h.scsiComplete.setPhase .awaitCsw).csw_settled rfl rfl

theorem Running.botStall_settled (d : Dir) : Settled (botStall d s) := by
  have hstalled : Running ((s.bulkStalled d)) := by
    refine (h.setPhase .error).congr rfl rfl rfl ?_
    cases d with
    | dIn => simp [State.bulkStalled]
    | dOut => simpa [State.bulkStalled] using h.idle
  rw [botStall_eq]
  exact hstalled.settled (.inr (.inr rfl)) (fun hp => by cases hp) fun hp => by cases hp

theorem Running.phaseErrorNow_settles : Settles (phaseErrorNow s) :=
  (h.setStatus 2#8 (by decide)).enterAwaitCsw_settles

theorem Running.phaseErrorStall_settles (d : Dir) : Settles (phaseErrorStall d s) :=
  ensures_next ((h.setStatus 2#8 (by decide)).botStall_settled d)

/-- The next fragment of a chunk not yet sent, within the residue (rule R242). -/
theorem Running.sendFragment_settles (hphase : s.bot.phase = .dataIn) (hres : s.bot.csw.residue ≠ 0#32)
    (hleft : s.bot.dataOffset.toNat < s.bot.dataLen.toNat) : Settles (sendFragment s) := by
  have hres' : s.bot.csw.residue.toNat ≠ 0 := fun h0 => hres (BitVec.eq_of_toNat_eq h0)
  have hsub : (s.bot.dataLen - s.bot.dataOffset).toNat = s.bot.dataLen.toNat - s.bot.dataOffset.toNat :=
    BitVec.toNat_sub_of_le hleft.le
  have hlen : fragmentLen s
      = min (min 64 (s.bot.dataLen.toNat - s.bot.dataOffset.toNat)) s.bot.csw.residue.toNat := by
    rw [fragmentLen, hsub]
  have h64 : (Mem.readRange s.bot.dataBuf s.bot.dataOffset.toNat (fragmentLen s)).length ≤ 64 := by
    rw [Mem.readRange_length]
    omega
  refine (h.send_sent _ h64).imp fun t ht => ht ▸ h.sent_settled _ (.inl hphase) (fun _ => ?_) fun hp => ?_
  · rw [Mem.readRange_length]
    exact ⟨by omega, by omega, by omega, rfl⟩
  · simp [hphase] at hp

/-- Bulk-OUT armed for payload (rules R238, R243, R244). -/
theorem Running.armOut_dataOut (hphase : s.bot.phase = .dataOut)
    (hout : (s.bot.dataLen = 0#32 ∧ s.bot.dataOffset.toNat < s.bot.cbw.dtl.toNat ∧ s.bot.csw.residue = s.bot.cbw.dtl)
      ∨ (s.bot.dataLen = 512#32 ∧ s.bot.dataOffset.toNat < 512)) : Settled (Machine.armOut s) := by
  have harm := h.armOut
  rw [armOut_outArmed] at harm ⊢
  exact harm.settled (.inr (.inl hphase)) (fun _ => hout) fun hp => by simp [State.outArmed, hphase] at hp

/-- Bulk-OUT armed for the next CBW (rules R238, R248). -/
theorem Running.armOut_awaitCbw (hphase : s.bot.phase = .awaitCbw) (hctx : s.scsi.ctx = 0#32) :
    Settled (Machine.armOut s) := by
  have harm := h.armOut
  rw [armOut_outArmed] at harm ⊢
  exact harm.settled (.inl hphase) (fun hp => by simp [State.outArmed, hphase] at hp) fun _ => hctx

end

/-! ## The command phase -/

theorem dtl_ne_zero_of_hostClass {c : Cbw} (h : hostClass c ≠ .hn) : c.dtl ≠ 0#32 := mt hostClass_hn h

section
variable {s : State} (h : Running s)
include h

/-- A command without data (rule R234): cases 1, 4 and 9. -/
theorem Running.completed_settles (hres : s.bot.csw.residue = s.bot.cbw.dtl)
    (hcode : s.scsi.code = 0 ∨ s.scsi.code = -1 ∨ s.scsi.code = -3) : Settles (botClassify s) := by
  refine ensures_byHost (botClassify_completed s hcode) (fun _ => h.completed.enterAwaitCsw_settles)
    (fun _ => ensures_next (h.completed.botStall_settled _)) fun hclass => ensures_next ?_
  have hres' : s.completed.bot.csw.residue = s.completed.bot.cbw.dtl := by
    unfold State.completed
    split <;> exact hres
  have hdtl : s.completed.bot.cbw.dtl ≠ 0#32 := by
    rw [completed_cbw]
    exact dtl_ne_zero_of_hostClass (by simp [hclass])
  have hpos : 0 < s.completed.bot.cbw.dtl.toNat :=
    Nat.pos_of_ne_zero fun h0 => hdtl (BitVec.eq_of_toNat_eq h0)
  exact (h.completed.setChunk 0#32 0#32 .dataOut (by decide)).armOut_dataOut rfl (.inl ⟨rfl, hpos, hres'⟩)

/-- A command that sends (rule R234): cases 2, 5 to 7 and 10. -/
theorem Running.sending_settles (hres : s.bot.csw.residue = s.bot.cbw.dtl) (hlen : 1 ≤ s.bot.dataLen.toNat)
    (hcode : s.scsi.code = 1 ∨ s.scsi.code = 2) : Settles (botClassify s) := by
  refine ensures_byHost (botClassify_sending s hcode) (fun _ => h.phaseErrorNow_settles) (fun hclass => ?_)
    fun _ => h.phaseErrorStall_settles _
  have hdtl : s.bot.cbw.dtl ≠ 0#32 := dtl_ne_zero_of_hostClass (by simp [hclass])
  exact ((h.setOffset 0#32).setPhase .dataIn).sendFragment_settles rfl (hres ▸ hdtl) hlen

/-- A command that wants data (rule R234): cases 3, 8 and 11 to 13. -/
theorem Running.wanting_settles (hcode : s.scsi.code = 3 ∨ s.scsi.code = 4) : Settles (botClassify s) := by
  refine ensures_byHost (botClassify_wanting s hcode) (fun _ => h.phaseErrorNow_settles)
    (fun _ => h.phaseErrorStall_settles _) fun _ => ensures_next ?_
  exact (h.setChunk 512#32 0#32 .dataOut (by decide)).armOut_dataOut rfl (.inr ⟨rfl, Nat.zero_lt_succ _⟩)

/-- A command's outcome is placed (rules R234, R235). -/
theorem Running.botClassify_settles (hres : s.bot.csw.residue = s.bot.cbw.dtl)
    (hlen : s.scsi.code = 1 ∨ s.scsi.code = 2 → 1 ≤ s.bot.dataLen.toNat) : Settles (botClassify s) := by
  by_cases hdone : s.scsi.code = 0 ∨ s.scsi.code = -1 ∨ s.scsi.code = -3
  · exact h.completed_settles hres hdone
  by_cases hsends : s.scsi.code = 1 ∨ s.scsi.code = 2
  · exact h.sending_settles hres (hlen hsends) hsends
  by_cases hwants : s.scsi.code = 3 ∨ s.scsi.code = 4
  · exact h.wanting_settles hwants
  · rw [botClassify_other s (by omega)]
    exact ensures_fault rfl

/-- A CBW is accepted, its command run and its outcome placed (rules R233, R234). -/
theorem Running.execCbw_settles (c : Cbw) (hcb : c.cb.length = 16) : Settles (execCbw c s) := by
  refine ensures_ite (fun hc => ?_) fun _ => ensures_fault rfl
  obtain ⟨-, -, hlun, -⟩ := (meaningfulCbw_iff c s).1 hc
  refine ensures_andThen ((h.acceptCbw c hcb hlun).scsiCall 0#32) fun u hu => ?_
  refine hu.running.botClassify_settles ?_ hu.chunk
  rw [hu.bot]
  rfl

/-! ## The data-out phase -/

/-- Discard mode (rule R244). -/
theorem Running.discardPacket_settles (p : List Byte) (hphase : s.bot.phase = .dataOut) (hlen : s.bot.dataLen = 0#32)
    (hoff : s.bot.dataOffset.toNat < s.bot.cbw.dtl.toNat) (hres : s.bot.csw.residue = s.bot.cbw.dtl) :
    Settles (discardPacket p s) := by
  refine ensures_ite (fun _ => ensures_fault rfl) fun hfits => ?_
  have hcounted : Running (s.discarded p.length) := h.setOffset _
  refine ensures_ite (fun _ => hcounted.enterAwaitCsw_settles) fun hmore => ensures_next ?_
  refine hcounted.armOut_dataOut hphase (.inl ⟨hlen, ?_, hres⟩)
  have hnext : (s.bot.dataOffset + BitVec.ofNat 32 p.length).toNat ≤ s.bot.cbw.dtl.toNat := by
    rw [not_or, Nat.not_lt, BitVec.toNat_sub_of_le hoff.le] at hfits
    rw [BitVec.toNat_add, BitVec.toNat_ofNat]
    omega
  exact lt_of_le_of_ne hnext fun heq => hmore (BitVec.eq_of_toNat_eq heq)

/-- A whole chunk was taken (rule R243). -/
theorem Running.afterChunk_settles (hphase : s.bot.phase = .dataOut)
    (hlen : s.scsi.code = 3 ∨ s.scsi.code = 4 → s.bot.dataLen = 512#32) : Settles (afterChunk s) := by
  have hfailed := h.setStatus 1#8 (by decide)
  refine ensures_ite (fun hcode => ?_) fun _ => ensures_ite (fun _ => ?_) fun _ => ensures_ite (fun _ => ?_) fun _ =>
    ensures_fault rfl
  · refine ensures_ite (fun _ => h.phaseErrorNow_settles) fun _ => ensures_next ?_
    exact (h.setOffset 0#32).armOut_dataOut hphase (.inr ⟨hlen hcode, Nat.zero_lt_succ _⟩)
  · exact ensures_ite (fun _ => h.enterAwaitCsw_settles) fun _ => ensures_next (h.botStall_settled _)
  · exact ensures_ite (fun _ => hfailed.enterAwaitCsw_settles) fun _ => ensures_next (hfailed.botStall_settled _)

/-- A payload packet of a chunk (rule R243). -/
theorem Running.payloadPacket_settles (p : List Byte) (hphase : s.bot.phase = .dataOut)
    (hlen : s.bot.dataLen = 512#32) (hoff : s.bot.dataOffset.toNat < 512) : Settles (payloadPacket p s) := by
  refine ensures_ite (fun _ => ensures_fault rfl) fun hfits => ?_
  have hle : s.bot.dataOffset.toNat ≤ s.bot.dataLen.toNat := by
    rw [hlen]
    exact hoff.le
  rw [not_or, not_or, Nat.not_lt, Nat.not_lt, BitVec.toNat_sub_of_le hle] at hfits
  obtain ⟨-, hchunk, hres⟩ := hfits
  have h512 : s.bot.dataLen.toNat = 512 := by rw [hlen]; rfl
  have hstored : Running (s.stored p) := h.stored p (by omega) hres
  refine ensures_ite (fun _ => ?_) fun hpart => ensures_ite (fun _ => hstored.phaseErrorNow_settles) fun _ => ?_
  · refine ensures_andThen (hstored.scsiCall _) fun u hu => hu.running.afterChunk_settles ?_ fun hcode => ?_
    · rw [hu.bot]
      exact hphase
    · rw [hu.kept (by omega)]
      exact hlen
  · refine ensures_next (hstored.armOut_dataOut hphase (.inr ⟨hlen, ?_⟩))
    have hnext : (s.bot.dataOffset + BitVec.ofNat 32 p.length).toNat ≤ s.bot.dataLen.toNat := by
      rw [BitVec.toNat_add, BitVec.toNat_ofNat]
      omega
    exact (lt_of_le_of_ne hnext fun heq => hpart (BitVec.eq_of_toNat_eq heq)).trans_eq h512

/-! ## The data-in phase -/

/-- The next block was asked for (rule R241). -/
theorem Running.continueWithBlock_settles (hphase : s.bot.phase = .dataIn) (hres : s.bot.csw.residue ≠ 0#32)
    (hlen : s.scsi.code = 1 ∨ s.scsi.code = 2 → 1 ≤ s.bot.dataLen.toNat) : Settles (continueWithBlock s) := by
  refine ensures_ite (fun hcode => ?_) fun _ => ensures_ite (fun _ => ?_) fun _ => ensures_fault rfl
  · exact (h.setOffset 0#32).sendFragment_settles hphase hres (hlen hcode)
  · exact ensures_next ((h.setStatus 1#8 (by decide)).botStall_settled _)

/-- A fragment was counted (rule R241). -/
theorem Running.continueDataIn_settles (hphase : s.bot.phase = .dataIn) : Settles (continueDataIn s) := by
  refine ensures_ite (fun _ => ?_) fun hres => ensures_ite (fun hleft => h.sendFragment_settles hphase hres hleft)
    fun _ => ensures_ite (fun _ => ?_) fun _ => ensures_next (h.botStall_settled _)
  · exact ensures_ite (fun _ => h.phaseErrorNow_settles) fun _ => h.enterAwaitCsw_settles
  · refine ensures_andThen (h.scsiCall _) fun u hu => hu.running.continueWithBlock_settles ?_ ?_ hu.chunk
    · rw [hu.bot]
      exact hphase
    · rw [hu.bot]
      exact hres

end

/-! ## The flags of a Tick -/

/-- A packet that waits is a CBW with a command block of 16 bytes, or no CBW (rules R94, R113). -/
theorem decodeBulkOut_cases (p : List Byte) :
    (∃ c, c.cb.length = 16 ∧ decodeBulkOut p = .cbw c) ∨ decodeBulkOut p = .bulkOutDefault p := by
  unfold decodeBulkOut
  split_ifs with hcbw
  · exact .inl ⟨decodeCbw p, by simp [decodeCbw, hcbw.1], rfl⟩
  · exact .inr rfl

section
variable {s : State} (h : Settled s)
include h

/-- The flags of a served packet and of a released halt are not of the invariant. -/
theorem Settled.clearRxFlag : Settled s.clearRxFlag :=
  ⟨h.valid, h.bufWf, h.bufSize, { h.session with pending := h.session.pending }, h.phase⟩

theorem Settled.clearErrFlag : Settled s.clearErrFlag :=
  ⟨h.valid, h.bufWf, h.bufSize, { h.session with pending := h.session.pending }, h.phase⟩

/-- A released halt is served (rule R232). -/
theorem Settled.botOnErr_settles : Settles (botOnErr s) := by
  refine ensures_ite (fun hhalt => ?_) fun _ => ensures_ite (fun hcsw => ?_) fun _ => ensures_next h
  · exact (h.running_of_phase (.inr (.inr hhalt.1))).enterAwaitCsw_settles
  · obtain ⟨hphase, htx, hnak⟩ := hcsw
    have hrun : Running s := h.running htx (by simp [hnak])
    have hctx : s.scsi.ctx = 0#32 := h.session.ctx (.inr hphase)
    exact (hrun.send_sent _ (by simp)).imp fun t ht => ht ▸ hrun.csw_settled hphase hctx

/-- The packet that waits on bulk-OUT is served (rules R233, R243 to R245). -/
theorem Settled.botOnRx_settles : Settles (botOnRx s) := by
  unfold botOnRx fetchBulk
  by_cases hphase : s.bot.phase = .awaitCbw
  · rw [if_pos hphase]
    have hrun := h.running_of_phase (.inl hphase)
    rcases decodeBulkOut_cases (s.rxBuf 2) with ⟨c, hcb, hfetched⟩ | hfetched
    · rw [hfetched]
      exact hrun.execCbw_settles c hcb
    · have hstop : exec (.bulkOutDefault (s.rxBuf 2)) s = .fault .invalidCbw :=
        (packetsRejected.2 (s.rxBuf 2) s).1 hphase
      rw [hfetched, hstop]
      exact ensures_fault rfl
  · rw [if_neg hphase]
    by_cases hout : s.bot.phase = .dataOut
    · have hrun := h.running_of_phase (.inr (.inl hout))
      rcases h.session.dataOut hout with ⟨hlen, hoff, hres⟩ | ⟨hlen, hoff⟩
      · rw [execBulkOutDefault_discard _ s hout hlen]
        exact hrun.discardPacket_settles _ hout hlen hoff hres
      · rw [execBulkOutDefault_payload _ s hout (by simp [hlen])]
        exact hrun.payloadPacket_settles _ hout hlen hoff
    · have hstop : exec (.bulkOutDefault (s.rxBuf 2)) s = .fault .rxInWrongPhase :=
        (packetsRejected.2 (s.rxBuf 2) s).2 hphase hout
      rw [hstop]
      exact ensures_fault rfl

/-- A taken packet is served: in DATA_IN or in AWAIT_CSW, as no other phase sends (rules R240, R248, R249). -/
theorem Settled.botOnTx_settles (htx : s.bot.txFlag = true) : Settles (botOnTx s.clearTxFlag) := by
  have hidle : (s.half 1 .dIn).state ≠ .valid := fun hv => by simp [h.session.oneIn hv] at htx
  have hsends : ¬ (s.bot.phase = .awaitCbw ∨ s.bot.phase = .dataOut ∨ s.bot.phase = .error) := fun hphase => by
    simp [(h.session.idleIn hphase).1] at htx
  have hrun : Running s.clearTxFlag :=
    Settled.running ⟨h.valid, h.bufWf, h.bufSize,
      { h.session with
        idleIn := fun hphase => absurd hphase hsends
        oneIn := fun hv => absurd hv hidle }, h.phase⟩ rfl hidle
  cases hphase : s.bot.phase with
  | dataIn =>
    have hphase' : s.clearTxFlag.bot.phase = .dataIn := hphase
    obtain ⟨-, hres, -, -⟩ := h.session.dataIn hphase
    rw [botOnTx_dataIn _ hphase']
    exact (hrun.moved _ hres).continueDataIn_settles hphase
  | awaitCsw =>
    have hphase' : s.clearTxFlag.bot.phase = .awaitCsw := hphase
    rw [botOnTx, hphase']
    exact ensures_next ((hrun.setPhase .awaitCbw).armOut_awaitCbw rfl (h.session.ctx (.inr hphase)))
  | awaitCbw => exact absurd (.inl hphase) hsends
  | dataOut => exact absurd (.inr (.inl hphase)) hsends
  | error => exact absurd (.inr (.inr hphase)) hsends
  | recovery => exact absurd hphase h.phase

end

/-- Reset recovery settles the session whatever it was (rule R250). -/
theorem botRecover_settled (s : State) (hvalid : s.cfg.valid = true) (hwf : Mem.wf s.bot.dataBuf = true)
    (hsize : ∀ c ∈ s.bot.dataBuf, c.1 < 512) (hlun : 1 ≤ s.scsi.lun.length) (hrst : s.bot.rstFlag = false) :
    Settled (botRecover s) := by
  have hrun : Running s.sessionCleared.inDropped :=
    { valid := hvalid
      bufWf := hwf
      bufSize := hsize
      block := ⟨rfl, hlun⟩
      tag := rfl
      status := Nat.zero_le _
      residue := Nat.le_refl _
      chunk := Nat.zero_le _
      sense := ⟨rfl, rfl, rfl, rfl⟩
      pending := rfl
      rst := hrst
      tx := rfl
      idle := by
        rw [State.inDropped, State.half_setHalf, if_pos ⟨rfl, rfl⟩]
        dsimp only
        split
        · simp
        · assumption }
  rw [botRecover_eq, ← armOut_outArmed]
  exact (hrun.armOut.setPhase .awaitCbw).settled (.inl rfl) (fun hp => by cases hp) fun _ => by
    rw [armOut_outArmed]
    rfl

/-- Serving a flag that is not of the invariant keeps it, where its action does. -/
theorem serve_settles {clear : State → State} {action : State → Res} {flag : Bool} {s : State}
    (h : Settled s) (haction : flag = true → Settles (action (clear s))) :
    Settles (serve flag clear action s) :=
  ensures_ite haction fun _ => ensures_next h

/-- The main loop's turn settles (rule R231): after `rst_flag` the session is outside RECOVERY. -/
theorem mscPeriodic_settles (s : State) (hvalid : s.cfg.valid = true) (hwf : Mem.wf s.bot.dataBuf = true)
    (hsize : ∀ c ∈ s.bot.dataBuf, c.1 < 512) (hlun : 1 ≤ s.scsi.lun.length) (hsession : SessionInv s) :
    Settles (mscPeriodic s) := by
  refine ensures_andThen (Q := Settled) ?_ fun t ht => ensures_andThen (Q := Settled) ?_ fun u hu =>
    ensures_andThen (Q := Settled) ?_ fun v hv => ?_
  · refine ensures_ite (fun _ => ensures_next ?_) fun hrst => ensures_next ?_
    · exact botRecover_settled s.clearRstFlag hvalid hwf hsize hlun rfl
    · exact ⟨hvalid, hwf, hsize, hsession, fun hphase => hrst (hsession.recover.1 hphase)⟩
  · exact serve_settles ht fun _ => ht.clearErrFlag.botOnErr_settles
  · exact serve_settles hu fun _ => hu.clearRxFlag.botOnRx_settles
  · exact serve_settles hv hv.botOnTx_settles

end Sys2Proof.Machine
end

section
/-! PROOFS. The invariant of the machine (rules R8, R32, R40, R42, R64, R221, R271, R288): it holds after power-on,
every step keeps it, and from it no step reaches a fault the spec calls unreachable. -/

namespace Sys2Proof.Machine

/-- Settles O55, field by field on the reset state. -/
theorem invAtReset : Obligations.InvAtReset where
  params := ⟨by decide, by decide, by decide, by decide⟩
  memory := ⟨rfl, fun _ hc => absurd hc List.not_mem_nil, rfl, fun _ hc => absurd hc List.not_mem_nil⟩
  endpoints :=
    { slot1 := by decide
      slot2 := by decide
      unused := by
        intro n _ d
        revert n
        cases d <;> decide
      counts := by
        intro n d
        revert n
        cases d <;> decide
      boundRx := by decide
      boundTx := by decide
      boundRel := by decide
      ep0 := fun hpull => by cases hpull
      unstarted := fun _ => ⟨rfl, rfl, rfl, rfl⟩ }
  session :=
    { pending := by decide
      recover := by decide
      block := by decide
      tag := rfl
      status := by decide
      residue := by decide
      chunk := by decide
      dataOut := fun hphase => by cases hphase
      dataIn := fun hphase => by cases hphase
      awaitCsw := fun hphase => by cases hphase
      idleIn := fun _ => by decide
      oneIn := fun _ => rfl
      ctx := fun _ => rfl
      sense := ⟨rfl, rfl, rfl, rfl⟩ }

/-! ## The main loop -/

/-- The frame of the main loop carries over what the session's invariant leaves. -/
theorem BulkFrame.endpoints {s t : State} (h : BulkFrame s t) (hs : EndpointInv s) : EndpointInv t := by
  have hin : ∀ d, d ≠ .dIn → t.half 1 d = s.half 1 d := by
    intro d hd
    cases d with
    | dIn => exact absurd rfl hd
    | dOut =>
      rw [State.half, h.slotIn]
      rfl
  have hout : ∀ d, d ≠ .dOut → t.half 2 d = s.half 2 d := by
    intro d hd
    cases d with
    | dIn =>
      rw [State.half, h.slotOut]
      rfl
    | dOut => exact absurd rfl hd
  have hother (n : Fin 8) (h1 : n ≠ 1) (h2 : n ≠ 2) (d : Dir) : t.half n d = s.half n d := by
    rw [State.half, h.others n h1 h2, State.half]
  have hcallbacks (n : Fin 8) : (t.ep n).cbRx = (s.ep n).cbRx ∧ (t.ep n).cbTx = (s.ep n).cbTx
      ∧ (t.ep n).cbRelease = (s.ep n).cbRelease := by
    by_cases h1 : n = 1
    · rw [h1, h.slotIn]
      exact ⟨rfl, rfl, rfl⟩
    · by_cases h2 : n = 2
      · rw [h2, h.slotOut]
        exact ⟨rfl, rfl, rfl⟩
      · rw [h.others n h1 h2]
        exact ⟨rfl, rfl, rfl⟩
  exact
    { slot1 := by rw [hin _ (by decide)]; exact hs.slot1
      slot2 := by rw [hout _ (by decide)]; exact hs.slot2
      unused := fun n hn d => by
        rw [hother n (by rintro rfl; contradiction) (by rintro rfl; contradiction)]
        exact hs.unused n hn d
      counts := fun n d => by
        by_cases h1 : n = 1
        · subst h1
          cases d with
          | dIn => exact h.countIn (hs.counts 1 .dIn)
          | dOut => rw [hin _ (by decide)]; exact hs.counts 1 .dOut
        · by_cases h2 : n = 2
          · subst h2
            cases d with
            | dIn => rw [hout _ (by decide)]; exact hs.counts 2 .dIn
            | dOut => rw [h.countOut]; exact hs.counts 2 .dOut
          · rw [hother n h1 h2]
            exact hs.counts n d
      boundRx := fun n => by rw [(hcallbacks n).1]; exact hs.boundRx n
      boundTx := fun n => by rw [(hcallbacks n).2.1]; exact hs.boundTx n
      boundRel := fun n => by rw [(hcallbacks n).2.2]; exact hs.boundRel n
      ep0 := fun hpull => by
        rw [hother 0 (by decide) (by decide), hother 0 (by decide) (by decide), h.others 0 (by decide) (by decide)]
        rw [h.usb] at hpull
        exact hs.ep0 hpull
      unstarted := fun hpull => by
        rw [h.usb] at hpull ⊢
        exact hs.unstarted hpull }

/-- The invariant follows from the frame and the settled session. -/
theorem BulkFrame.inv {s t : State} (h : BulkFrame s t) (hs : s.Inv) (ht : Settled t) : t.Inv where
  params :=
    { valid := ht.valid
      drivers := by rw [h.usb]; exact hs.params.drivers
      luns := h.lun ▸ hs.params.luns
      capacity := h.lun ▸ hs.params.capacity }
  memory :=
    { pmaWf := h.pmaWf hs.memory.pmaWf
      pmaAssigned := fun c hc => (h.cells c hc).elim (hs.memory.pmaAssigned c) fun hr => .inr (.inr hr)
      bufWf := ht.bufWf
      bufSize := ht.bufSize }
  endpoints := h.endpoints hs.endpoints
  session := ht.session

/-- An outcome that keeps the invariant, or a fault that may happen. -/
abbrev KeepsInv (o : Res) : Prop := Ensures State.Inv Fault.expected o

/-- The MSC driver's `periodic` (rule R231). -/
theorem State.Inv.mscPeriodic {s : State} (h : s.Inv) : KeepsInv (mscPeriodic s) := by
  have hsettles := mscPeriodic_settles s h.params.valid h.memory.bufWf h.memory.bufSize h.params.luns.1 h.session
  exact ⟨fun t ht => ((mscPeriodic_frame s).1 t ht).inv h (hsettles.1 t ht), hsettles.2⟩

/-- A Tick, whatever the drivers (rule R162). -/
theorem State.Inv.onTick {s : State} (h : s.Inv) : KeepsInv (onTick s) :=
  ensures_forDrivers (fun _ _ hu => ensures_ite (fun _ => hu.mscPeriodic) fun _ => ensures_next hu) _ s h

/-! ## Between an event's first effects and EP0's re-arming -/

/-- The halves that a configuration ever enables: EP0's, bulk-IN's and bulk-OUT's (rules R141, R225). -/
def UsedHalf (n : Fin 8) (d : Dir) : Prop := n = 0 ∨ (n = 1 ∧ d = .dIn) ∨ (n = 2 ∧ d = .dOut)

/-- What the invariant says of one slot, but for EP0's RX half being armed. -/
structure SlotInv (started : Bool) (n : Fin 8) (e : Endpoint) : Prop where
  used     : ∀ d, (e.half d).state ≠ .disabled → UsedHalf n d
  counts   : ∀ d, (e.half d).count ≤ 64
  boundRx  : e.cbRx = none ∨ (n = 0 ∧ e.cbRx = some .ep0Engine) ∨ (n = 2 ∧ e.cbRx = some .mscRx)
  boundTx  : e.cbTx = none ∨ (n = 0 ∧ e.cbTx = some .ep0Engine) ∨ (n = 1 ∧ e.cbTx = some .mscTx)
  boundRel : e.cbRelease = none ∨ ((n = 1 ∨ n = 2) ∧ e.cbRelease = some .mscRelease)
  ep0      : n = 0 → started = true → e.type = .control ∧ e.tx.state ≠ .disabled

/-- The invariant, but for EP0's RX half being armed: what holds while an event is handled. -/
structure Unarmed (s : State) : Prop where
  params    : ParamsInv s
  memory    : MemoryInv s
  slots     : ∀ n, SlotInv s.usb.pullup n (s.ep n)
  unstarted : s.usb.pullup = false →
    s.usb.enumState = .powered ∧ s.usb.devAddress = 0#7 ∧ s.usb.pendingAddress = none ∧ s.usb.configValue = 0#8
  session   : SessionInv s

theorem State.Inv.unarmed {s : State} (h : s.Inv) : Unarmed s where
  params := h.params
  memory := h.memory
  unstarted := h.endpoints.unstarted
  session := h.session
  slots n :=
    { used := fun d henabled => by
        by_cases h0 : n = 0
        · exact .inl h0
        by_cases h1 : n = 1
        · subst h1
          cases d with
          | dIn => exact .inr (.inl ⟨rfl, rfl⟩)
          | dOut => exact absurd h.endpoints.slot1 henabled
        by_cases h2 : n = 2
        · subst h2
          cases d with
          | dIn => exact absurd h.endpoints.slot2 henabled
          | dOut => exact .inr (.inr ⟨rfl, rfl⟩)
        · exact absurd (h.endpoints.unused n (by omega) d) henabled
      counts := h.endpoints.counts n
      boundRx := h.endpoints.boundRx n
      boundTx := h.endpoints.boundTx n
      boundRel := h.endpoints.boundRel n
      ep0 := fun h0 hpull => by
        obtain ⟨htype, -, hin⟩ := h.endpoints.ep0 hpull
        exact h0 ▸ ⟨htype, hin⟩ }

/-- With EP0's RX half armed, or before `Start`, it is the invariant. -/
theorem Unarmed.inv {s : State} (h : Unarmed s) (harmed : s.usb.pullup = true → (s.half 0 .dOut).state = .valid) :
    s.Inv where
  params := h.params
  memory := h.memory
  session := h.session
  endpoints :=
    { slot1 := by
        by_contra henabled
        simpa [UsedHalf] using (h.slots 1).used .dOut henabled
      slot2 := by
        by_contra henabled
        simpa [UsedHalf] using (h.slots 2).used .dIn henabled
      unused := fun n hn d => by
        by_contra henabled
        rcases (h.slots n).used d henabled with rfl | ⟨rfl, -⟩ | ⟨rfl, -⟩
        · exact absurd hn (by decide)
        · exact absurd hn (by decide)
        · exact absurd hn (by decide)
      counts := fun n => (h.slots n).counts
      boundRx := fun n => (h.slots n).boundRx
      boundTx := fun n => (h.slots n).boundTx
      boundRel := fun n => (h.slots n).boundRel
      ep0 := fun hpull => by
        obtain ⟨htype, hin⟩ := (h.slots 0).ep0 rfl hpull
        exact ⟨htype, harmed hpull, hin⟩
      unstarted := h.unstarted }

/-! ## What keeps it -/

/-- The device layer may change as long as nothing is newly queued on bulk-IN and, outside RECOVERY, its count stays. -/
theorem SessionInv.setUsb {s : State} (h : SessionInv s) (u : Usb)
    (hvalid : u.ep[1].tx.state = .valid → (s.half 1 .dIn).state = .valid)
    (hcount : s.bot.phase = .recovery ∨ u.ep[1].tx.count = (s.half 1 .dIn).count) :
    SessionInv { s with usb := u } := by
  have hkept : s.bot.phase ≠ .recovery →
      (State.half { s with usb := u } 1 .dIn).count = (s.half 1 .dIn).count := hcount.resolve_left
  have hbuf : s.bot.phase ≠ .recovery → State.txBuf { s with usb := u } 1 = s.txBuf 1 := fun hp =>
    State.txBuf_congr s _ 1 rfl (hkept hp)
  exact
    { h with
      dataIn := fun hp => by
        have hp' : s.bot.phase ≠ .recovery := fun heq => by cases hp.symm.trans heq
        rw [hkept hp', hbuf hp']
        exact h.dataIn hp
      awaitCsw := fun hp => by
        rw [hbuf fun heq => by cases hp.symm.trans heq]
        exact h.awaitCsw hp
      idleIn := fun hp => ⟨(h.idleIn hp).1, fun hv => (h.idleIn hp).2 (hvalid hv)⟩
      oneIn := fun hv => h.oneIn (hvalid hv) }

/-- A slot's invariant after one of its halves is replaced. -/
theorem SlotInv.withHalf {b : Bool} {n : Fin 8} {e : Endpoint} (he : SlotInv b n e) (d : Dir) (x : Half)
    (hused : x.state ≠ .disabled → UsedHalf n d) (hcount : x.count ≤ 64)
    (hep0 : n = 0 → d = .dIn → x.state ≠ .disabled) : SlotInv b n (e.withHalf d x) := by
  cases d with
  | dIn =>
    exact
      { used := fun d henabled => by
          cases d with
          | dIn => exact hused henabled
          | dOut => exact he.used .dOut henabled
        counts := fun d => by
          cases d with
          | dIn => exact hcount
          | dOut => exact he.counts .dOut
        boundRx := he.boundRx
        boundTx := he.boundTx
        boundRel := he.boundRel
        ep0 := fun h0 hb => ⟨(he.ep0 h0 hb).1, hep0 h0 rfl⟩ }
  | dOut =>
    exact
      { used := fun d henabled => by
          cases d with
          | dIn => exact he.used .dIn henabled
          | dOut => exact hused henabled
        counts := fun d => by
          cases d with
          | dIn => exact he.counts .dIn
          | dOut => exact hcount
        boundRx := he.boundRx
        boundTx := he.boundTx
        boundRel := he.boundRel
        ep0 := he.ep0 }

section
variable {s : State} (h : Unarmed s)
include h

/-- The device layer's values other than the endpoint table. -/
theorem Unarmed.setUsb (u : Usb) (hdrivers : 1 ≤ u.ifdrv.length) (hslots : ∀ n : Fin 8, SlotInv u.pullup n u.ep[n])
    (hunstarted : u.pullup = false →
      u.enumState = .powered ∧ u.devAddress = 0#7 ∧ u.pendingAddress = none ∧ u.configValue = 0#8)
    (hvalid : u.ep[1].tx.state = .valid → (s.half 1 .dIn).state = .valid)
    (hcount : s.bot.phase = .recovery ∨ u.ep[1].tx.count = (s.half 1 .dIn).count) :
    Unarmed { s with usb := u } where
  params := { h.params with drivers := hdrivers }
  memory := { h.memory with pmaWf := h.memory.pmaWf }
  slots := hslots
  unstarted := hunstarted
  session := h.session.setUsb u hvalid hcount

/-- One slot replaced. -/
theorem Unarmed.setEp (n : Fin 8) (e : Endpoint) (he : SlotInv s.usb.pullup n e)
    (hin : n = 1 → (e.tx.state = .valid → (s.half 1 .dIn).state = .valid)
      ∧ (s.bot.phase = .recovery ∨ e.tx.count = (s.half 1 .dIn).count)) : Unarmed (s.setEp n e) := by
  have hslot (m : Fin 8) : (s.setEp n e).usb.ep[m] = if m = n then e else s.ep m := State.ep_setEp s n m e
  have hone : (s.setEp n e).usb.ep[1] = if 1 = n then e else s.ep 1 := hslot 1
  refine h.setUsb (s.setEp n e).usb h.params.drivers (fun m => ?_) h.unstarted ?_ ?_
  · rw [hslot]
    split
    · rename_i hm
      exact hm ▸ he
    · exact h.slots m
  · rw [hone]
    split
    · rename_i hn
      exact (hin hn.symm).1
    · exact id
  · rw [hone]
    split
    · rename_i hn
      exact (hin hn.symm).2
    · exact .inr rfl

/-- One half replaced: enabled only where it is used, on bulk-IN with the count kept and nothing newly queued. -/
theorem Unarmed.setHalf (n : Fin 8) (d : Dir) (x : Half) (hused : x.state ≠ .disabled → UsedHalf n d)
    (hcount : x.count ≤ 64) (hep0 : n = 0 → d = .dIn → x.state ≠ .disabled)
    (hin : n = 1 → d = .dIn → (x.state = .valid → (s.half 1 .dIn).state = .valid) ∧ x.count = (s.half 1 .dIn).count) :
    Unarmed (s.setHalf n d x) := by
  refine h.setEp n _ ((h.slots n).withHalf d x hused hcount hep0) fun hn => ?_
  subst hn
  cases d with
  | dIn => exact ⟨(hin rfl rfl).1, .inr (hin rfl rfl).2⟩
  | dOut => exact ⟨id, .inr rfl⟩

/-- A half of the device layer is used if it is enabled. -/
theorem Unarmed.used {n : Fin 8} {d : Dir} (henabled : (s.half n d).state ≠ .disabled) : UsedHalf n d :=
  (h.slots n).used d henabled

/-- Packet memory written in a buffer of another half than bulk-IN's (rule R64). -/
theorem Unarmed.setPma (off : Nat) (bytes : List Byte)
    (hoff : (0x40 ≤ off ∧ off + bytes.length ≤ 0xC0) ∨ (0x100 ≤ off ∧ off + bytes.length ≤ 0x140)) :
    Unarmed { s with pma := Mem.write s.pma off bytes } := by
  have hcount : (s.half 1 .dIn).count ≤ 64 := (h.slots 1).counts .dIn
  have hbuf : State.txBuf { s with pma := Mem.write s.pma off bytes } 1 = s.txBuf 1 :=
    Mem.readRange_congr _ _ 0x180 (s.half 1 .dIn).count fun a h1 h2 => Mem.read_write_other _ _ _ _ (by omega)
  exact
    { params := { h.params with valid := h.params.valid }
      memory :=
        { h.memory with
          pmaWf := Mem.wf_write _ _ _ h.memory.pmaWf
          pmaAssigned := fun c hc => (Mem.mem_write _ _ _ c hc).elim (h.memory.pmaAssigned c) fun hr => by
            unfold Assigned
            omega }
      slots := h.slots
      unstarted := h.unstarted
      session :=
        { h.session with
          dataIn := fun hp => by
            rw [hbuf]
            exact h.session.dataIn hp
          awaitCsw := fun hp => hbuf.trans (h.session.awaitCsw hp) } }

/-- The session may change by itself, with its buffer kept. -/
theorem Unarmed.setBot (b : Bot) (hbuf : b.dataBuf = s.bot.dataBuf) (hsession : SessionInv { s with bot := b }) :
    Unarmed { s with bot := b } where
  params := { h.params with valid := h.params.valid }
  memory := { h.memory with bufWf := hbuf ▸ h.memory.bufWf, bufSize := hbuf ▸ h.memory.bufSize }
  slots := h.slots
  unstarted := h.unstarted
  session := hsession

theorem Unarmed.setRxFlag : Unarmed s.setRxFlag :=
  h.setBot _ rfl { h.session with pending := h.session.pending }

theorem Unarmed.setErrFlag : Unarmed s.setErrFlag :=
  h.setBot _ rfl { h.session with pending := h.session.pending }

/-- A packet taken on bulk-IN in a phase that sends (rule R227). -/
theorem Unarmed.setTxFlag (hsends : ¬ (s.bot.phase = .awaitCbw ∨ s.bot.phase = .dataOut ∨ s.bot.phase = .error))
    (hidle : (s.half 1 .dIn).state ≠ .valid) : Unarmed s.setTxFlag :=
  h.setBot _ rfl
    { h.session with
      idleIn := fun hp => absurd hp hsends
      oneIn := fun hv => absurd hv hidle }

/-- A session reset is requested: RECOVERY (rules R40, R230). -/
theorem Unarmed.requestReset : Unarmed s.requestReset :=
  h.setBot _ rfl
    { pending := by simp
      recover := by simp
      block := h.session.block
      tag := h.session.tag
      status := h.session.status
      residue := h.session.residue
      chunk := h.session.chunk
      dataOut := fun hp => by cases hp
      dataIn := fun hp => by cases hp
      awaitCsw := fun hp => by cases hp
      idleIn := fun hp => by rcases hp with hp | hp | hp <;> cases hp
      oneIn := h.session.oneIn
      ctx := fun hp => by rcases hp with hp | hp <;> cases hp
      sense := h.session.sense }

end

/-! ## SETUP packets -/

theorem releasedState_ne_disabled (s : State) (n : Fin 8) (d : Dir) : s.releasedState n d ≠ .disabled := by
  unfold State.releasedState
  split
  · split <;> simp
  · split <;> simp

/-- Bulk-IN's halt is released to NAK (rules R186, R228). -/
theorem releasedState_in (s : State) : s.releasedState 1 .dIn = .nak := by
  unfold State.releasedState
  split
  · exact if_neg fun h => absurd h.2 (by decide)
  · rfl

/-- The release decision sets `err_flag` or nothing (rule R228). -/
theorem releasedBot_cases (s : State) (n : Fin 8) :
    s.releasedBot n = s.bot ∨ s.releasedBot n = { s.bot with errFlag := true } := by
  unfold State.releasedBot
  split
  · exact .inl rfl
  · exact .inr rfl

/-- Bulk-IN as a configuration sets it up (rule R225). -/
theorem slotInv_bulkIn (b : Bool) : SlotInv b 1 (configured .bulk none (some .mscTx) (some .mscRelease)) where
  used d henabled := by
    cases d with
    | dIn => exact .inr (.inl ⟨rfl, rfl⟩)
    | dOut => exact absurd rfl henabled
  counts d := by cases d <;> decide
  boundRx := .inl rfl
  boundTx := .inr (.inr ⟨rfl, rfl⟩)
  boundRel := .inr ⟨.inl rfl, rfl⟩
  ep0 hzero := absurd hzero (by decide)

/-- Bulk-OUT as a configuration sets it up (rule R225). -/
theorem slotInv_bulkOut (b : Bool) : SlotInv b 2 (configured .bulk (some .mscRx) none (some .mscRelease)) where
  used d henabled := by
    cases d with
    | dIn => exact absurd rfl henabled
    | dOut => exact .inr (.inr ⟨rfl, rfl⟩)
  counts d := by cases d <;> decide
  boundRx := .inr (.inr ⟨rfl, rfl⟩)
  boundTx := .inl rfl
  boundRel := .inr ⟨.inr rfl, rfl⟩
  ep0 hzero := absurd hzero (by decide)

/-- EP0 as `start` and a bus reset configure it (rules R141, R147). -/
theorem slotInv_ep0 (b : Bool) : SlotInv b 0 (configured .control (some .ep0Engine) (some .ep0Engine) none) where
  used _ _ := .inl rfl
  counts d := by cases d <;> decide
  boundRx := .inr (.inl ⟨rfl, rfl⟩)
  boundTx := .inr (.inl ⟨rfl, rfl⟩)
  boundRel := .inl rfl
  ep0 _ _ := ⟨rfl, by decide⟩

section
variable {s : State} (h : Unarmed s)
include h

/-- CLEAR_FEATURE(ENDPOINT_HALT) (rules R186, R228). -/
theorem Unarmed.clearHalt (n : Fin 8) (d : Dir) (henabled : (s.half n d).state ≠ .disabled) :
    Unarmed (clearHalt n d s) := by
  have hhalf := h.setHalf n d
    { state := s.releasedState n d
      toggle := if (s.half n d).state = .stall ∧ n ≠ 0 then false else (s.half n d).toggle
      count := (s.half n d).count }
    (fun _ => h.used henabled) ((h.slots n).counts d) (fun _ _ => releasedState_ne_disabled s n d) fun hn hd => by
      subst hn hd
      refine ⟨fun hv => ?_, rfl⟩
      rw [releasedState_in] at hv
      cases hv
  rw [clearHalt_eq]
  rcases releasedBot_cases s n with hbot | hbot
  · rw [hbot]
    exact hhalf
  · rw [hbot]
    exact hhalf.setErrFlag

/-- SET_FEATURE(ENDPOINT_HALT) (rule R189). -/
theorem Unarmed.halted (n : Fin 8) (d : Dir) (henabled : (s.half n d).state ≠ .disabled) :
    Unarmed (s.halted n d) := by
  unfold State.halted
  split
  · exact h
  · exact h.setHalf n d _ (fun _ => h.used henabled) ((h.slots n).counts d) (fun _ _ => by simp) fun hn hd => by
      subst hn hd
      exact ⟨fun hv => by simp at hv, rfl⟩

/-- The bulk slots configured or taken down, in RECOVERY (rule R225). -/
theorem Unarmed.bulkEnabled (cfg : Byte) (hphase : s.bot.phase = .recovery) : Unarmed (s.bulkEnabled cfg) := by
  unfold State.bulkEnabled
  split
  · have hin := h.setEp 1 _ (slotInv_bulkIn _) fun _ => ⟨fun hv => (by cases hv), .inl hphase⟩
    exact hin.setEp 2 _ (slotInv_bulkOut _) fun htwo => absurd htwo (by decide)
  · have hin : Unarmed (disableHalf 1 .dIn s) :=
      h.setHalf 1 .dIn _ (fun henabled => absurd rfl henabled) ((h.slots 1).counts .dIn)
        (fun hzero => absurd hzero (by decide)) fun _ _ => ⟨fun hv => (by cases hv), rfl⟩
    exact hin.setHalf 2 .dOut _ (fun henabled => absurd rfl henabled) ((hin.slots 2).counts .dOut)
      (fun hzero => absurd hzero (by decide)) fun htwo => absurd htwo (by decide)

/-- The device layer's values of a started device: only the endpoint table and the driver table are of the invariant. -/
theorem Unarmed.setValues (u : Usb) (hep : u.ep = s.usb.ep) (hdrivers : u.ifdrv = s.usb.ifdrv)
    (hpull : s.usb.pullup = true) (hpull' : u.pullup = true) : Unarmed { s with usb := u } := by
  refine h.setUsb u (hdrivers ▸ h.params.drivers) (fun n => ?_) (fun hoff => ?_) ?_ (.inr ?_)
  · rw [hep, hpull', ← hpull]
    exact h.slots n
  · simp [hpull'] at hoff
  · rw [hep]
    exact id
  · rw [hep]
    rfl

/-- SET_CONFIGURATION (rule R196). -/
theorem Unarmed.configSet (cfg : Byte) (hpull : s.usb.pullup = true) : Unarmed (s.configSet cfg) := by
  have hstored : Unarmed (s.configStored cfg) := h.setValues _ rfl rfl hpull hpull
  unfold State.configSet
  split
  · rw [← bulkEnabled_requestReset]
    exact hstored.requestReset.bulkEnabled cfg rfl
  · exact hstored

/-- What a SETUP's instruction does before it answers. -/
theorem Unarmed.effect {u : State} (hu : CtrlEffect s u) (hpull : s.usb.pullup = true) : Unarmed u := by
  cases hu with
  | unchanged => exact h
  | released n d henabled => exact h.clearHalt n d henabled
  | halted n d henabled => exact h.halted n d henabled
  | addressRecorded a => exact h.setValues _ rfl rfl hpull hpull
  | configured cfg => exact h.configSet cfg hpull
  | resetRequested => exact h.requestReset

theorem Unarmed.ep0Stalled : Unarmed s.ep0Stalled :=
  h.setHalf 0 .dIn _ (fun _ => .inl rfl) ((h.slots 0).counts .dIn) (fun _ _ => by simp) fun hone =>
    absurd hone (by decide)

/-- A packet on EP0 (rules R64, R144; log 20). -/
theorem Unarmed.send_ep0 (bytes : List Byte) (hlen : bytes.length ≤ 64) :
    Ensures Unarmed Fault.expected (send 0 bytes s) := by
  have hpad := padWord_le bytes hlen
  constructor
  · intro t ht
    obtain ⟨-, -, off, hoff, -, rfl⟩ := (send_eq_next 0 bytes s t).1 ht
    obtain rfl : 0x80 = off := Option.some.inj hoff
    have hhalf := h.setHalf 0 .dIn { s.half 0 .dIn with state := .valid, count := bytes.length } (fun _ => .inl rfl)
      hlen (fun _ _ => by simp) fun hone => absurd hone (by decide)
    exact hhalf.setPma 0x80 (padWord bytes) (.inl ⟨by omega, by omega⟩)
  · intro f hf
    obtain ⟨-, -, -, -, -, hpma⟩ := config_bounds s.cfg h.params.valid
    rcases send_eq_fault 0 bytes s f hf with ⟨-, hlong⟩ | ⟨rfl, -⟩ | ⟨-, hnone⟩ | ⟨-, off, hoff, hend⟩
    · omega
    · rfl
    · cases hnone
    · obtain rfl : 0x80 = off := Option.some.inj hoff
      omega

/-- A SETUP's instruction as a whole (rules R148 to R154). -/
theorem Unarmed.answer {o : Res} (ho : CtrlAnswer s o) (hpull : s.usb.pullup = true) :
    Ensures Unarmed Fault.expected o := by
  cases ho with
  | stalled => exact ensures_next h.ep0Stalled
  | sent u bytes hu hlen => exact (h.effect hu hpull).send_ep0 bytes (hlen h.params.valid)

/-- EP0's RX half armed: the invariant (rule R155). -/
theorem Unarmed.rearmEp0 : (rearmEp0 s).Inv := by
  rw [rearmEp0_eq]
  have hhalf := h.setHalf 0 .dOut { s.half 0 .dOut with state := .valid } (fun _ => .inl rfl) ((h.slots 0).counts .dOut)
    (fun _ hd => by cases hd) fun hone => absurd hone (by decide)
  exact hhalf.inv fun _ => by simp

/-- A packet stored on EP0 or bulk-OUT (rules R16, R64, R66). -/
theorem Unarmed.received (n : Fin 8) (off : Nat) (v : HalfState) (toggle : Bool) (p : List Byte)
    (hoff : rxOffset n = some off) (hlen : p.length ≤ 64) : Unarmed (s.received n off v toggle p) := by
  have hslot := rxOffset_some n off hoff
  have hhalf := h.setHalf n .dOut ⟨v, toggle, p.length⟩
    (fun _ => hslot.elim (fun hz => .inl hz.1) fun ht => .inr (.inr ⟨ht.1, rfl⟩)) hlen (fun _ hd => by cases hd)
    fun _ hd => by cases hd
  exact hhalf.setPma off p (by omega)

end

/-- A SETUP packet (rules R148, R155). -/
theorem State.Inv.onRxSetup {s : State} (h : s.Inv) (p : List Byte) : KeepsInv (onRxSetup p s) := by
  by_cases hen : setupEnabled p s = true
  · obtain ⟨x, o, -, hanswer, hrun⟩ := onRxSetup_served p s hen
    obtain ⟨hpull, hlen⟩ : s.usb.pullup = true ∧ p.length = 8 := by
      simp only [setupEnabled, Bool.and_eq_true, beq_iff_eq] at hen
      exact hen.1
    have hstored : Unarmed (receiveSetup p s) := by
      rw [receiveSetup_eq]
      refine (h.unarmed.received 0 0x40 _ _ p rfl (by omega)).setHalf 0 .dIn _ (fun _ => .inl rfl)
        (h.endpoints.counts 0 .dIn) (fun _ _ => by simp) fun hone => absurd hone (by decide)
    have hlatched : Unarmed (latchSetup x (receiveSetup p s)) := hstored.setValues _ rfl rfl hpull hpull
    rw [hrun]
    exact ensures_andThen (hlatched.answer hanswer hpull) fun u hu => ensures_next hu.rearmEp0
  · have hskip : Machine.onRxSetup p s = .next s := if_neg hen
    rw [hskip]
    exact ensures_next h

/-! ## Data packets -/

/-- An OUT packet (rules R155, R156, R226): on EP0 or on bulk-OUT, as no other RX half is enabled. -/
theorem State.Inv.onRxOut {s : State} (h : s.Inv) (n : Fin 8) (p : List Byte) : KeepsInv (onRxOut n p s) := by
  by_cases hen : outEnabled n p s = true
  · obtain ⟨⟨hpull, hlen⟩, hvalid⟩ : (s.usb.pullup = true ∧ p.length ≤ 64) ∧ (s.half n .dOut).state = .valid := by
      simpa [outEnabled] using hen
    rcases h.unarmed.used (n := n) (d := .dOut) (by simp [hvalid]) with rfl | ⟨-, hd⟩ | ⟨rfl, -⟩
    · rw [onRxOut_ep0 p s hen]
      refine ensures_next ?_
      split
      · exact (h.unarmed.ep0Stalled.received 0 0x40 .valid _ p rfl hlen).inv fun _ => by simp
      · exact (h.unarmed.received 0 0x40 .valid _ p rfl hlen).inv fun _ => by simp
    · cases hd
    · have hrun : Machine.onRxOut 2 p s
          = .next (runCallback (s.ep 2).cbRx (s.received 2 0x100 .nak (! (s.half 2 .dOut).toggle) p)) := by
        rw [← receiveOut_eq 2 0x100 p s rfl]
        exact if_pos hen
      have hstored := h.unarmed.received 2 0x100 .nak (! (s.half 2 .dOut).toggle) p rfl hlen
      have harmed (hpull : s.usb.pullup = true) :
          ((s.received 2 0x100 .nak (! (s.half 2 .dOut).toggle) p).half 0 .dOut).state = .valid := by
        rw [received_half, if_neg (by decide)]
        exact (h.endpoints.ep0 hpull).2.1
      rw [hrun]
      refine ensures_next ?_
      rcases h.endpoints.boundRx 2 with hcb | ⟨hz, -⟩ | ⟨-, hcb⟩
      · rw [hcb]
        exact hstored.inv harmed
      · exact absurd hz (by decide)
      · rw [hcb]
        exact hstored.setRxFlag.inv harmed
  · have hskip : Machine.onRxOut n p s = .next s := if_neg hen
    rw [hskip]
    exact ensures_next h

/-- A taken packet leaves its half NAK (rule R16 b). -/
theorem Unarmed.sentIn {s : State} (h : Unarmed s) (n : Fin 8) (hvalid : (s.half n .dIn).state = .valid) :
    Unarmed (sentIn n s) :=
  h.setHalf n .dIn _ (fun _ => h.used (by simp [hvalid])) ((h.slots n).counts .dIn) (fun _ _ => by simp) fun hn _ => by
    subst hn
    exact ⟨fun hv => by simp at hv, rfl⟩

/-- A taken packet leaves the RX halves alone. -/
theorem sentIn_half_out (n m : Fin 8) (s : State) : (sentIn n s).half m .dOut = s.half m .dOut := by
  simp [sentIn]

/-- A packet taken by the host (rules R157, R158, R227): on EP0 or on bulk-IN. -/
theorem State.Inv.onTxDone {s : State} (h : s.Inv) (n : Fin 8) : KeepsInv (onTxDone n s) := by
  by_cases hen : doneEnabled n s = true
  · obtain ⟨hpull, hvalid⟩ : s.usb.pullup = true ∧ (s.half n .dIn).state = .valid := by
      simpa [doneEnabled] using hen
    have hsent := h.unarmed.sentIn n hvalid
    have harmed : ((Machine.sentIn n s).half 0 .dOut).state = .valid := by
      rw [sentIn_half_out]
      exact (h.endpoints.ep0 hpull).2.1
    rcases h.unarmed.used (n := n) (d := .dIn) (by simp [hvalid]) with rfl | ⟨rfl, -⟩ | ⟨-, hd⟩
    · have hrun : Machine.onTxDone 0 s = .next (commitAddress (Machine.sentIn 0 s)) := (if_pos hen).trans (if_pos rfl)
      rw [hrun]
      refine ensures_next ?_
      unfold commitAddress
      split
      · exact hsent.inv fun _ => harmed
      · refine Unarmed.inv ?_ fun _ => harmed
        exact hsent.setValues _ rfl rfl hpull hpull
    · have hrun : Machine.onTxDone 1 s = .next (runCallback (s.ep 1).cbTx (Machine.sentIn 1 s)) := if_pos hen
      have hsends : ¬ (s.bot.phase = .awaitCbw ∨ s.bot.phase = .dataOut ∨ s.bot.phase = .error) := fun hphase =>
        (h.session.idleIn hphase).2 hvalid
      rw [hrun]
      refine ensures_next ?_
      rcases h.endpoints.boundTx 1 with hcb | ⟨hz, -⟩ | ⟨-, hcb⟩
      · rw [hcb]
        exact hsent.inv fun _ => harmed
      · exact absurd hz (by decide)
      · rw [hcb]
        exact (hsent.setTxFlag hsends (by simp [Machine.sentIn])).inv fun _ => harmed
    · cases hd
  · have hskip : Machine.onTxDone n s = .next s := if_neg hen
    rw [hskip]
    exact ensures_next h

/-! ## Resets, the application and the medium -/

/-- A slot taken down by a bus reset (rule R147). -/
theorem SlotInv.resetSlot {b : Bool} {n : Fin 8} {e : Endpoint} (he : SlotInv b n e) (hn : n ≠ 0) :
    SlotInv b n (resetSlot e) where
  used d henabled := by cases d <;> exact absurd rfl henabled
  counts d := by
    cases d with
    | dIn => exact he.counts .dIn
    | dOut => exact he.counts .dOut
  boundRx := he.boundRx
  boundTx := he.boundTx
  boundRel := he.boundRel
  ep0 hz := absurd hz hn

/-- A bus reset's effect on the device layer (rule R147). -/
theorem State.Inv.busResetDevice {s : State} (h : s.Inv) (hpull : s.usb.pullup = true) : s.busResetDevice.Inv := by
  have hframe := busResetDevice_frame s
  have hdrivers : s.busResetDevice.usb.ifdrv = s.usb.ifdrv := by rw [hframe]
  have hpull' : s.busResetDevice.usb.pullup = true := by rw [hframe]; exact hpull
  have hone : s.busResetDevice.usb.ep[1] = resetSlot (s.ep 1) := busResetDevice_ep_other s 1 (by decide)
  have hslot (n : Fin 8) : SlotInv s.busResetDevice.usb.pullup n s.busResetDevice.usb.ep[n] := by
    change SlotInv _ n (s.busResetDevice.ep n)
    rw [hpull', ← hpull]
    by_cases hn : n = 0
    · subst hn
      rw [busResetDevice_ep_zero]
      exact slotInv_ep0 _
    · rw [busResetDevice_ep_other s n hn]
      exact (h.unarmed.slots n).resetSlot hn
  have hunarmed : Unarmed { s with usb := s.busResetDevice.usb } := by
    refine h.unarmed.setUsb s.busResetDevice.usb (hdrivers ▸ h.params.drivers) hslot (fun hoff => ?_) ?_ (.inr ?_)
    · simp [hpull'] at hoff
    · rw [hone]
      exact fun hv => by cases hv
    · rw [hone]
      rfl
  have heq : s.busResetDevice = { s with usb := s.busResetDevice.usb } := by
    rw [hframe]
  rw [heq]
  refine hunarmed.inv fun _ => ?_
  change ((s.busResetDevice.ep 0).half .dOut).state = .valid
  rw [busResetDevice_ep_zero]
  rfl

/-- `BusReset` (rules R147, R230). -/
theorem State.Inv.onBusReset {s : State} (h : s.Inv) : KeepsInv (onBusReset s) := by
  by_cases hpull : s.usb.pullup = true
  · have hdevice := h.busResetDevice hpull
    rw [onBusReset_started s hpull]
    refine ensures_next ?_
    split
    · exact hdevice.unarmed.requestReset.inv fun hp => (hdevice.endpoints.ep0 hp).2.1
    · exact hdevice
  · have hskip : Machine.onBusReset s = .next s := if_neg hpull
    rw [hskip]
    exact ensures_next h

/-- `register_interface` (rule R145). -/
theorem State.Inv.registerInterface {s : State} (h : s.Inv) (i : Nat) (d : Driver) :
    KeepsInv (registerInterface i d s) := by
  refine ensures_ite (fun _ => ensures_fault rfl) fun _ => ensures_next ?_
  have hunarmed := h.unarmed.setUsb { s.usb with ifdrv := s.usb.ifdrv.set i (some d) }
    (by simpa using h.params.drivers) h.unarmed.slots h.unarmed.unstarted id (.inr rfl)
  exact hunarmed.inv fun hpull => (h.endpoints.ep0 hpull).2.1

/-- `start()` (rule R141). -/
theorem State.Inv.start {s : State} (h : s.Inv) : KeepsInv (start s) := by
  have hep (n : Fin 8) : (s.setEp 0 (configured .control (some .ep0Engine) (some .ep0Engine) none)).usb.ep[n]
      = if n = 0 then configured .control (some .ep0Engine) (some .ep0Engine) none else s.ep n :=
    State.ep_setEp s 0 n _
  have hone : (s.setEp 0 (configured .control (some .ep0Engine) (some .ep0Engine) none)).usb.ep[1] = s.ep 1 :=
    (hep 1).trans (if_neg (by decide))
  have hslot (n : Fin 8) : SlotInv true n
      (s.setEp 0 (configured .control (some .ep0Engine) (some .ep0Engine) none)).usb.ep[n] := by
    rw [hep]
    split
    · rename_i hn
      subst hn
      exact slotInv_ep0 true
    · rename_i hn
      exact { h.unarmed.slots n with ep0 := fun hz => absurd hz hn }
  have hunarmed := h.unarmed.setUsb
    { s.usb with
      devAddress := 0#7, pendingAddress := none, configValue := 0#8, enumState := .powered, pullup := true,
      ep := (s.setEp 0 (configured .control (some .ep0Engine) (some .ep0Engine) none)).usb.ep }
    h.params.drivers hslot (fun hoff => by cases hoff) (fun hv => by rwa [hone] at hv) (.inr (by rw [hone]; rfl))
  rw [start_eq]
  exact ensures_next (hunarmed.inv fun _ =>
    congrArg (fun e : Endpoint => (e.half .dOut).state) ((hep 0).trans (if_pos rfl)))

/-- A medium's change (rule R47). -/
theorem State.Inv.onMediumChange {s : State} (h : s.Inv) (l : Nat) (m : MediumState) :
    (onMediumChange l m s).Inv := by
  unfold Machine.onMediumChange
  split
  · have hlen : (s.scsi.lun.modify l fun r => { r with state := m }).length = s.scsi.lun.length := by simp
    have hcapacity : ∀ r ∈ s.scsi.lun.modify l (fun r => { r with state := m }), 1 ≤ r.capacityBlocks.toNat := by
      intro r hr
      obtain ⟨k, hk, rfl⟩ := List.mem_iff_getElem.1 hr
      rw [List.getElem_modify]
      have hold := h.params.capacity _ (List.getElem_mem (hlen ▸ hk))
      split
      · exact hold
      · exact hold
    exact
      { params := { h.params with luns := by simpa using h.params.luns, capacity := hcapacity }
        memory := { h.memory with pmaWf := h.memory.pmaWf }
        endpoints := { h.endpoints with slot1 := h.endpoints.slot1 }
        session := { h.session with block := by simpa using h.session.block } }
  · exact h

/-! ## Every step -/

/-- The events to come are not of the invariant. -/
theorem State.Inv.setInputs {s : State} (h : s.Inv) (es : List Event) : State.Inv { s with inputs := es } where
  params := { h.params with valid := h.params.valid }
  memory := { h.memory with pmaWf := h.memory.pmaWf }
  endpoints := { h.endpoints with slot1 := h.endpoints.slot1 }
  session := { h.session with pending := h.session.pending }

theorem State.Inv.onEvent {s : State} (h : s.Inv) (e : Event) : KeepsInv (onEvent e s) := by
  cases e with
  | rxSetup p => exact h.onRxSetup p
  | rxOut n p => exact h.onRxOut n p
  | txDone n => exact h.onTxDone n
  | busReset => exact h.onBusReset
  | busError => exact ensures_next h
  | overrun => exact ensures_next h
  | tick => exact h.onTick
  | registerInterface i d => exact h.registerInterface i d
  | start => exact h.start
  | mediumChange l m => exact ensures_next (h.onMediumChange l m)

/-- Without an event (rule R395; log 3). -/
theorem State.Inv.onIdle {s : State} (h : s.Inv) : KeepsInv (onIdle s) := by
  refine ensures_ite (fun _ => h.onTick) fun _ => ?_
  split
  · exact h.registerInterface 0 Driver.msc
  · exact h.start

/-- A step keeps the invariant or stops by a fault that may happen. -/
theorem State.Inv.step {s : State} (h : s.Inv) : KeepsInv (step s) := by
  cases hin : s.inputs with
  | nil =>
    rw [step_of_idle hin]
    exact h.onIdle
  | cons e es =>
    rw [step_of_event hin]
    exact (h.setInputs es).onEvent e

/-- Settles O56, from the event handlers one by one. -/
theorem stepKeepsInv : Obligations.StepKeepsInv := fun _ t h => h.step.1 t

/-- Settles O58: the same walk through the handlers shows which faults they reach. -/
theorem unreachableFaults : Obligations.UnreachableFaults := fun _ f h => h.step.2 f

end Sys2Proof.Machine
end
